-- ==== Sys2Proof/Word.lean ====
section
/-! DEFINITION. The word types of the hart. -/

namespace Sys2Proof

/-- Storage of an `XLEN`-bit value (R10). With `XLEN = 32` the value stands in the low 32 bits and the upper
32 are zero. DESIGN CHOICE (log 2), safe. -/
abbrev Word := BitVec 64

/-- The smallest addressable unit of memory (R40). -/
abbrev Byte := BitVec 8

/-- The number of an integer register, as an instruction encodes it (R10). -/
abbrev RegNum := BitVec 5

end Sys2Proof
end

