-- ==== Sys2Proof/Config.lean ====
section
/-! DEFINITION. What an implementation fixes (00_scope.md R6) and the free values. -/

namespace Sys2Proof

/-- `XLEN`, the width of the x registers and the pc (R6, D1). -/
inductive Xlen where
  | rv32
  | rv64
deriving DecidableEq, Repr

/-- The number of bits of `XLEN`. -/
def Xlen.bits : Xlen → Nat
  | .rv32 => 32
  | .rv64 => 64

/-- A value of the parameter `LPCNL_ENC` (R6, R67, D6): match, mask and the position of the 10-bit `NLPL`. -/
structure LpcnlEnc where
  mat  : BitVec 32
  mask : BitVec 32
  pos  : Nat
deriving DecidableEq, Repr

/-- A value of the parameter `LPL_ACCESS` (R6, R13, D5, U5): a CSR number and a layout, the positions of the least
significant bits of `LL`, `ML` and `UL` in that CSR (log 24). -/
structure LplAccess where
  csr   : BitVec 12
  llPos : Nat
  mlPos : Nat
  ulPos : Nat
deriving DecidableEq, Repr

/-- The implementation parameters of R6 that are fixed for a hart. A step changes none of them (log 1). `RESET(f)` is an
argument of reset, `IRQ` and `TRAP_TARGET` are inputs, `XTVAL_ILLEGAL` is the free value below. -/
structure Config where
  xlen      : Xlen
  /-- `HAS_C`: compressed instructions (D2). -/
  hasC      : Bool
  /-- `HAS_S`: S-mode (D3). -/
  hasS      : Bool
  /-- `HAS_U`: U-mode (D3). -/
  hasU      : Bool
  /-- `HAS_H`: the hypervisor extension (D3). -/
  hasH      : Bool
  /-- `LPCNL_ENC` (D6). -/
  lpcnlEnc  : Option LpcnlEnc
  /-- `LPL_ACCESS` (D5). -/
  lplAccess : Option LplAccess
deriving DecidableEq, Repr

/-- The defaults of R6. `XLEN` has none there: 64 is a DESIGN CHOICE (log 22). -/
def Config.default : Config where
  xlen      := .rv64
  hasC      := true
  hasS      := true
  hasU      := true
  hasH      := false
  lpcnlEnc  := none
  lplAccess := none

/-- Free value: what `xtval` receives on the n-th trap. The spec leaves it open (`XTVAL_ILLEGAL`, R191, D8) and
states no trap value for the other causes (R196). Nothing constrains it. DESIGN CHOICE (log 10), safe. -/
opaque Config.freeTrapValue : Nat → Word

end Sys2Proof
end

