-- ==== Sys2Proof/Syntax.lean ====
section
/-! DEFINITION. The instructions of spec/opcode_table.json, one constructor a row, and the words they are read from. -/

namespace Sys2Proof

/-- One constructor per row of the opcode table, operands as the row's encoding gives them (R68). -/
inductive Instr where
  /-- Landing pad, check first label (R110). -/
  | lpcll (flpl : BitVec 10)
  /-- Check next label (R113). Decodable only under `LPCNL_ENC` (R67). -/
  | lpcnl (nlpl : BitVec 10)
  /-- Check middle label (R130). -/
  | lpcml (mlpl : BitVec 8)
  /-- Check upper label (R131). -/
  | lpcul (ulpl : BitVec 8)
  /-- Set lower label, clear the others (R140). No word selects it (R66). -/
  | lpsll (llpl : BitVec 9)
  /-- Set middle label (R141). -/
  | lpsml (mlpl : BitVec 8)
  /-- Set upper label (R142). -/
  | lpsul (ulpl : BitVec 8)
  /-- Zimop fallback of bits 31:25 = 1000001, `rd ≠ 0` (R160). -/
  | mopRr0 (rd : RegNum) (ignored : BitVec 10)
  /-- Zimop fallback of bits 31:25 = 1000011, `rd ≠ 0` (R161). -/
  | mopRr1 (rd : RegNum) (ignored : BitVec 10)
  /-- R170. -/
  | lui (rd : RegNum) (imm20 : BitVec 20)
  /-- R171. -/
  | addi (rd rs1 : RegNum) (imm12 : BitVec 12)
  /-- R172, R91, R94. -/
  | jalr (rd rs1 : RegNum) (imm12 : BitVec 12)
  /-- R173, R92; `rs1 ≠ 0`. -/
  | cJr (rs1 : RegNum)
  /-- R174, R93; `rs1 ≠ 0`. -/
  | cJalr (rs1 : RegNum)
  /-- R175. -/
  | cSlli (rd : RegNum) (shamt : BitVec 6)
  /-- R198. -/
  | mret
  /-- R199, R200. -/
  | sret
deriving DecidableEq, Repr

/-- What a fetch delivers: one 16-bit parcel, or the 32-bit word of two (R41, R74). -/
inductive InstWord where
  | half (h : BitVec 16)
  | word (w : BitVec 32)
deriving DecidableEq, Repr

/-- Why a word selects no instruction of the table. -/
inductive Reject where
  /-- Fewer bytes than the length bits of the first parcel ask for (R74). -/
  | truncated
  /-- A 16-bit parcel without `HAS_C` (R74). -/
  | compressedAbsent
  /-- `C.JR` with `rs1 = 0`: "the word with `rs1 == 0` is reserved" (R173). -/
  | reservedCJr
  /-- `C.EBREAK`: the `C.JALR` pattern with `rs1 = 0` (R174), not in the spec. -/
  | cEbreak
  /-- The `C.SLLI` pattern with bit 12 set on RV32: "not this instruction on RV32" (R175). -/
  | shamtOnRv32
  /-- SYSTEM, `funct3 = 100`, other bits 31:25: outside the spec (R69, U7). -/
  | otherSystem100
  /-- Any other word: in no row of the table (00_scope.md section 3). -/
  | notInTable
deriving DecidableEq, Repr

/-- The answer of the decoder. -/
inductive Decoded where
  | instr (i : Instr)
  | rejected (why : Reject)
deriving DecidableEq, Repr

end Sys2Proof
end

