-- ==== Sys2Proof/Decode.lean ====
section
/-! DEFINITION. The decoder, total on any bytes, and after it the encoder; both from the match and mask values of
30_encoding.md, 45_base_instructions.md, 60_exceptions.md and spec/opcode_table.json. -/

namespace Sys2Proof

/-- The length of an instruction word in bytes (R74). -/
def InstWord.bytes : InstWord → Nat
  | .half _ => 2
  | .word _ => 4

/-- Mask and match of the selectable 32-bit rows of priority 1 (R69); no two of them share a word. -/
def rows32 : List (BitVec 32 × BitVec 32) :=
  [ (0xFE007FFF, 0x82004073)   -- lpcll  (R62, R66)
  , (0xFF807FFF, 0x86804073)   -- lpcml  (R63)
  , (0xFF807FFF, 0x87804073)   -- lpcul  (R63)
  , (0xFF807FFF, 0x86004073)   -- lpsml  (R65)
  , (0xFF807FFF, 0x87004073)   -- lpsul  (R65)
  , (0x0000007F, 0x00000037)   -- lui    (R170)
  , (0x0000707F, 0x00000013)   -- addi   (R171)
  , (0x0000707F, 0x00000067)   -- jalr   (R172)
  , (0xFFFFFFFF, 0x30200073)   -- mret   (R198)
  , (0xFFFFFFFF, 0x10200073) ] -- sret   (R199)

/-- Does the word belong to the row with this mask and match? -/
def inRow (w mask mat : BitVec 32) : Bool := w &&& mask == mat

/-- The bits that the 10-bit `NLPL` takes at a position. -/
def nlplBits (pos : Nat) : BitVec 32 := 0x3FF#32 <<< pos

/-- The values of `LPCNL_ENC` the decoder uses: 32 bits long (R74), `rd` fixed to 0 (R68), `NLPL` inside the word and
outside the mask, and no word shared with another row. DESIGN CHOICE (log 16), safe. Bits 4:2 = 111 are not ruled out (log
25). -/
def LpcnlEnc.usable (e : LpcnlEnc) : Bool :=
  decide (e.pos + 10 ≤ 32) && (e.mat &&& ~~~e.mask == 0) && (nlplBits e.pos &&& e.mask == 0)
    && (e.mask &&& 0xF83 == 0xF83) && (e.mat &&& 0xF83 == 3)
    && rows32.all fun row => (e.mat ^^^ row.2) &&& e.mask &&& row.1 != 0

/-- `LPCNL_ENC` where it is given and usable (R67). -/
def Config.lpcnl (cfg : Config) : Option LpcnlEnc := cfg.lpcnlEnc.filter LpcnlEnc.usable

/-- `rd = inst[11:7]` of a 32-bit word. -/
def rdOf (w : BitVec 32) : RegNum := w.extractLsb' 7 5

/-- `rs1 = inst[19:15]` of a 32-bit word. -/
def rs1Of (w : BitVec 32) : RegNum := w.extractLsb' 15 5

/-- `inst[31:20]`. -/
def imm12Of (w : BitVec 32) : BitVec 12 := w.extractLsb' 20 12

/-- Words of the Zimop fallback rows (priority 2, R69), then `lpcnl` where it has an encoding, then rejection by name. -/
def decodeFallback32 (cfg : Config) (w : BitVec 32) : Decoded :=
  if inRow w 0xFE00707F 0x82004073 && rdOf w != 0 then .instr (.mopRr0 (rdOf w) (w.extractLsb' 15 10))
  else if inRow w 0xFE00707F 0x86004073 && rdOf w != 0 then .instr (.mopRr1 (rdOf w) (w.extractLsb' 15 10))
  else match cfg.lpcnl with
    | some e =>
      if inRow w e.mask e.mat then .instr (.lpcnl (w.extractLsb' e.pos 10))
      else if inRow w 0x0000707F 0x00004073 then .rejected .otherSystem100 else .rejected .notInTable
    | none => if inRow w 0x0000707F 0x00004073 then .rejected .otherSystem100 else .rejected .notInTable

/-- A 32-bit word, rows of priority 1 first (R69). The words of `lpsll`'s figure are `lpcll`'s (R66). -/
def decode32 (cfg : Config) (w : BitVec 32) : Decoded :=
  if inRow w 0xFE007FFF 0x82004073 then .instr (.lpcll (w.extractLsb' 15 10))
  else if inRow w 0xFF807FFF 0x86804073 then .instr (.lpcml (w.extractLsb' 15 8))
  else if inRow w 0xFF807FFF 0x87804073 then .instr (.lpcul (w.extractLsb' 15 8))
  else if inRow w 0xFF807FFF 0x86004073 then .instr (.lpsml (w.extractLsb' 15 8))
  else if inRow w 0xFF807FFF 0x87004073 then .instr (.lpsul (w.extractLsb' 15 8))
  else if inRow w 0x0000007F 0x00000037 then .instr (.lui (rdOf w) (w.extractLsb' 12 20))
  else if inRow w 0x0000707F 0x00000013 then .instr (.addi (rdOf w) (rs1Of w) (imm12Of w))
  else if inRow w 0x0000707F 0x00000067 then .instr (.jalr (rdOf w) (rs1Of w) (imm12Of w))
  else if w == 0x30200073 then .instr .mret
  else if w == 0x10200073 then .instr .sret
  else decodeFallback32 cfg w

/-- `inst[11:7]` of a 16-bit parcel: `rs1` of `C.JR` and `C.JALR`, `rd` of `C.SLLI`. -/
def regOf16 (h : BitVec 16) : RegNum := h.extractLsb' 7 5

/-- A 16-bit parcel (R173 to R175); an instruction only with `HAS_C` (R74). -/
def decode16 (cfg : Config) (h : BitVec 16) : Decoded :=
  if cfg.hasC = false then .rejected .compressedAbsent
  else if h &&& 0xF07F == 0x8002 then
    if regOf16 h = 0 then .rejected .reservedCJr else .instr (.cJr (regOf16 h))
  else if h &&& 0xF07F == 0x9002 then
    if regOf16 h = 0 then .rejected .cEbreak else .instr (.cJalr (regOf16 h))
  else if h &&& 0xE003 == 0x0002 then
    if cfg.xlen = .rv32 ∧ h.getLsbD 12 = true then .rejected .shamtOnRv32
    else .instr (.cSlli (regOf16 h) (h.extractLsb' 12 1 ++ h.extractLsb' 2 5))
  else .rejected .notInTable

/-- The decoder. -/
def decode (cfg : Config) : InstWord → Decoded
  | .half h => decode16 cfg h
  | .word w => decode32 cfg w

/-- "The low two bits of the first 16-bit parcel tell the length" (R74). Row G3 of 93_implementation_defined.md also asks bits
4:2 not to be 111 for a 32-bit word; that the words of R74 are taken is a DESIGN CHOICE (log 25). -/
def isLong (parcel : BitVec 16) : Bool := parcel.extractLsb' 0 2 == 3#2

/-- The decoder on bytes as memory holds them, little-endian (R41), with the bytes it leaves. -/
def decodeBytes (cfg : Config) : List Byte → Decoded × List Byte
  | b0 :: b1 :: rest =>
    if isLong (b1 ++ b0) then
      match rest with
      | b2 :: b3 :: rest' => (decode cfg (.word (b3 ++ b2 ++ b1 ++ b0)), rest')
      | _ => (.rejected .truncated, rest)
    else (decode cfg (.half (b1 ++ b0)), rest)
  | short => (.rejected .truncated, short)

/-- The four bytes of a number, least significant first. -/
def wordBytes (w : Nat) : List Byte :=
  [BitVec.ofNat 8 w, BitVec.ofNat 8 (w >>> 8), BitVec.ofNat 8 (w >>> 16), BitVec.ofNat 8 (w >>> 24)]

/-- What the decoder reads from a word of the opcode table, in the default configuration. -/
def decodeTableWord (nbits w : Nat) : Option Instr :=
  match (decodeBytes Config.default (wordBytes (w % 2 ^ nbits))).1 with
  | .instr i => some i
  | .rejected _ => none

/-- A field of the word at a position. -/
def place {n : Nat} (v : BitVec n) (pos : Nat) : BitVec 32 := v.setWidth 32 <<< pos

/-- The words of a well-formed instruction, from the encoding figures and patterns (R62 to R65, R160, R161, R170 to R175,
R198, R199). `lpsll` has the word its figure draws, which is `lpcll`'s (R66, R72); `lpcnl` has a word only under
`LPCNL_ENC` (R67). -/
def encode (cfg : Config) : Instr → Option InstWord
  | .lpcll flpl => some (.word (0x82004073 ||| place flpl 15))
  | .lpcnl nlpl => cfg.lpcnl.map fun e => .word (e.mat ||| place nlpl e.pos)
  | .lpcml mlpl => some (.word (0x86804073 ||| place mlpl 15))
  | .lpcul ulpl => some (.word (0x87804073 ||| place ulpl 15))
  | .lpsll llpl => some (.word (0x82004073 ||| place llpl 15))
  | .lpsml mlpl => some (.word (0x86004073 ||| place mlpl 15))
  | .lpsul ulpl => some (.word (0x87004073 ||| place ulpl 15))
  | .mopRr0 rd ignored => some (.word (0x82004073 ||| place ignored 15 ||| place rd 7))
  | .mopRr1 rd ignored => some (.word (0x86004073 ||| place ignored 15 ||| place rd 7))
  | .lui rd imm20 => some (.word (0x00000037 ||| place imm20 12 ||| place rd 7))
  | .addi rd rs1 imm12 => some (.word (0x00000013 ||| place imm12 20 ||| place rs1 15 ||| place rd 7))
  | .jalr rd rs1 imm12 => some (.word (0x00000067 ||| place imm12 20 ||| place rs1 15 ||| place rd 7))
  | .cJr rs1 => some (.half (0b1000#4 ++ rs1 ++ 0b0000010#7))
  | .cJalr rs1 => some (.half (0b1001#4 ++ rs1 ++ 0b0000010#7))
  | .cSlli rd shamt => some (.half (0b000#3 ++ shamt.extractLsb' 5 1 ++ rd ++ shamt.extractLsb' 0 5 ++ 0b10#2))
  | .mret => some (.word 0x30200073)
  | .sret => some (.word 0x10200073)

end Sys2Proof
end

