-- ==== Sys2Proof/Machine/Operands.lean ====
section
/-! DEFINITION. Operand forms: the arithmetic of 45_base_instructions.md R176 modulo `2^XLEN`, and the label fields of
`x7`. -/

namespace Sys2Proof.Machine

open Sys2Proof

/-- A value modulo `2^XLEN`, as `Word` holds it (D1, log 2). -/
def wrap : Xlen → Word → Word
  | .rv32, v => (v.setWidth 32).setWidth 64
  | .rv64, v => v

/-- `sext_XLEN(imm12)` (R171). -/
def sextImm12 (x : Xlen) (imm12 : BitVec 12) : Word := wrap x (imm12.signExtend 64)

/-- The value of `LUI`: `sext_XLEN({imm20, 0x000})` (R170). -/
def luiValue (x : Xlen) (imm20 : BitVec 20) : Word := wrap x ((imm20 ++ 0#12).signExtend 64)

/-- `(a + sext_XLEN(imm12)) mod 2^XLEN` (R171). -/
def addImm (x : Xlen) (a : Word) (imm12 : BitVec 12) : Word := wrap x (a + sextImm12 x imm12)

/-- `(a << shamt) mod 2^XLEN` (R175). -/
def shiftLeft (x : Xlen) (a : Word) (shamt : BitVec 6) : Word := wrap x (a <<< shamt.toNat)

/-- `a & ~1` (R172 to R174). -/
def clearBit0 (a : Word) : Word := a &&& ~~~1

/-- The target of `JALR`: `(x[rs1] + sext_XLEN(imm12)) & ~1` (R172). -/
def jalrTarget (x : Xlen) (a : Word) (imm12 : BitVec 12) : Word := clearBit0 (addImm x a imm12)

/-- `pc + len` modulo `2^XLEN` (R11, D1). -/
def pcPlus (x : Xlen) (pc : Word) (len : Nat) : Word := wrap x (pc + BitVec.ofNat 64 len)

/-- `pc[1:0] == 0` (R11). -/
def aligned4 (pc : Word) : Bool := pc.extractLsb' 0 2 == 0#2

/-- `x7[31:22]`, the label `lpcll` compares with (R110). -/
def firstLabel (x7 : Word) : BitVec 10 := x7.extractLsb' 22 10

/-- `x7[21:12]`, the label `lpcnl` compares with (R113). -/
def nextLabel (x7 : Word) : BitVec 10 := x7.extractLsb' 12 10

end Sys2Proof.Machine
end

