-- ==== Sys2Proof/Machine/State.lean ====
section
/-! DEFINITION. The state of the hart, every piece the spec names (10_state.md, 60_exceptions.md), as plain data; the
reasons a step can stop; reset. -/

namespace Sys2Proof.Machine

open Sys2Proof

/-- `priv` (R25). -/
inductive Priv where
  | m
  | s
  | u
deriving DecidableEq, Repr

/-- What the one-bit `SPP` holds: the mode below M that a trap into S or VS came from (R196, R199, R200; log 12). -/
inductive Spp where
  | u
  | s
deriving DecidableEq, Repr

/-- `ELP`, and the previous `ELP` that an `xPELP` bit holds (R12, R22 to R24). -/
inductive Elp where
  /-- `NO_LP_EXPECTED`, the value 0. -/
  | noLpExpected
  /-- `LP_EXPECTED`, the value 1. -/
  | lpExpected
deriving DecidableEq, Repr

/-- The landing pad label register (R13). -/
structure Lpl where
  ll : BitVec 9
  ml : BitVec 8
  ul : BitVec 8
deriving DecidableEq, Repr

/-- `mseccfg` (R15). -/
structure Mseccfg where
  mfcfie : Bool
deriving DecidableEq, Repr

/-- `menvcfg` (R16, R17) and `henvcfg` (R19, R20). -/
structure Envcfg where
  cfie   : Bool
  sfcfie : Bool
deriving DecidableEq, Repr

/-- The fields of `mstatus` the spec names (R18, R22, R23, R196, R198, R199). -/
structure Mstatus where
  ufcfie : Bool
  mpelp  : Elp
  spelp  : Elp
  mpp    : Priv
  mpv    : Bool
  mpie   : Bool
  mie    : Bool
  spp    : Spp
  spie   : Bool
  sie    : Bool
  tsr    : Bool
deriving DecidableEq, Repr

/-- The fields of `vsstatus` the spec names (R21, R24, R196, R200). -/
structure Vsstatus where
  ufcfie : Bool
  spelp  : Elp
  spp    : Spp
  spie   : Bool
  sie    : Bool
deriving DecidableEq, Repr

/-- The fields of `hstatus` the spec names (R196, R199, R200). -/
structure Hstatus where
  spv  : Bool
  vtsr : Bool
deriving DecidableEq, Repr

/-- What `xcause` records: the interrupt bit and the code (R191, R196; log 12). -/
structure Cause where
  interrupt : Bool
  code      : BitVec 6
deriving DecidableEq, Repr

/-- `xtvec`: the base address and whether interrupts are vectored (R196; log 12). -/
structure Tvec where
  base     : Word
  vectored : Bool
deriving DecidableEq, Repr

/-- The trap registers of one trap-taking mode: `xepc`, `xcause`, `xtval`, `xtvec` (R196). -/
structure TrapCsrs where
  epc   : Word
  cause : Cause
  tval  : Word
  tvec  : Tvec
deriving DecidableEq, Repr

/-- The delegation registers that decide where a trap goes (R196); bit number = cause code (log 9). -/
structure Deleg where
  medeleg : BitVec 64
  mideleg : BitVec 64
  hedeleg : BitVec 64
  hideleg : BitVec 64
deriving DecidableEq, Repr

/-- The exceptions that the fetch of an instruction may raise (R194). -/
inductive FetchFault where
  | addressBreakpoint
  | pageFault
  | guestPageFault
  | accessFault
deriving DecidableEq, Repr

/-- What the environment says about one step: the oracle `IRQ` (R193, R96 line 1) and whether the fetch raises
(R96 line 2). The MODEL's own (log 8). -/
structure StepInput where
  irq        : Option (BitVec 6)
  fetchFault : Option FetchFault
deriving DecidableEq, Repr

/-- The modes a trap is taken into (R202). -/
inductive TrapMode where
  | m
  | s
  | vs
deriving DecidableEq, Repr

/-- Memory: address and byte pairs, addresses strictly rising (R40). An address that is not listed has no value
(log 7). -/
abbrev Memory := List Host.Cell

/-- The state of the hart. -/
structure State where
  cfg       : Config
  /-- `x0` to `x31` (R10); the place of `x0` is never read. -/
  regs      : Vector Word 32
  pc        : Word
  priv      : Priv
  /-- `V` (R25). -/
  virt      : Bool
  elp       : Elp
  lpl       : Lpl
  mseccfg   : Mseccfg
  menvcfg   : Envcfg
  henvcfg   : Envcfg
  mstatus   : Mstatus
  vsstatus  : Vsstatus
  hstatus   : Hstatus
  /-- `mepc`, `mcause`, `mtval`, `mtvec`. -/
  mtrap     : TrapCsrs
  /-- `sepc`, `scause`, `stval`, `stvec`. -/
  strap     : TrapCsrs
  /-- `vsepc`, `vscause`, `vstval`, `vstvec`. -/
  vstrap    : TrapCsrs
  deleg     : Deleg
  mem       : Memory
  /-- The MODEL's own: what the environment says about the coming steps, the next step first (log 8). -/
  inputs    : List StepInput
  /-- The MODEL's own: what the oracle `TRAP_TARGET` says about the coming traps, the next trap first (log 9). -/
  targets   : List TrapMode
  /-- The MODEL's own: how many free trap values were used (log 10). -/
  freeCount : Nat
deriving DecidableEq, Repr

/-- Why the model faults. -/
inductive Fault where
  /-- `step` raises it: the fetch at `pc` needs a byte that memory does not list. Safe (log 7). -/
  | unwrittenFetch (pc : Word)
deriving DecidableEq, Repr

/-- Why the model refuses. -/
inductive Refusal where
  /-- `exec` raises it for an instruction that has no meaning yet; no arm does now. Safe. -/
  | notModelled (mnemonic : String)
  /-- `step` raises it: the fetched word selects no instruction of the table (U7). Safe (log 14). -/
  | undecodable (why : Reject) (w : InstWord)
deriving DecidableEq, Repr

/-- "least-privileged implemented mode" (R198). -/
def leastPriv (cfg : Config) : Priv :=
  if cfg.hasU then .u else if cfg.hasS then .s else .m

/-- The trap registers of one mode after reset: the spec gives no values. DESIGN CHOICE (log 6). -/
def TrapCsrs.reset : TrapCsrs where
  epc   := 0
  cause := ⟨false, 0⟩
  tval  := 0
  tvec  := ⟨0, false⟩

/-- The parameter `RESET(f)`: the reset values of `ELP`, of `lpl` and of the ten CSR fields (R6, R29, U4). -/
structure ResetValues where
  elp             : Elp
  lpl             : Lpl
  mseccfgMFCFIE   : Bool
  menvcfgCFIE     : Bool
  menvcfgSFCFIE   : Bool
  mstatusUFCFIE   : Bool
  henvcfgCFIE     : Bool
  henvcfgSFCFIE   : Bool
  vsstatusUFCFIE  : Bool
  mstatusMPELP    : Elp
  mstatusSPELP    : Elp
  vsstatusSPELP   : Elp
deriving DecidableEq, Repr

/-- The defaults of R29 and R230: "all CFI state 0" (D7, log 3). -/
def ResetValues.default : ResetValues where
  elp             := .noLpExpected
  lpl             := ⟨0, 0, 0⟩
  mseccfgMFCFIE   := false
  menvcfgCFIE     := false
  menvcfgSFCFIE   := false
  mstatusUFCFIE   := false
  henvcfgCFIE     := false
  henvcfgSFCFIE   := false
  vsstatusUFCFIE  := false
  mstatusMPELP    := .noLpExpected
  mstatusSPELP    := .noLpExpected
  vsstatusSPELP   := .noLpExpected

/-- Reset of a hart with parameters `cfg`, `RESET(f)` and `RESET_PC` (R6, R29, R230): `priv` M and `V` 0 as R29 says
(log 3), and the model's values for the rest, DESIGN CHOICE (log 4, 5, 6). -/
def State.resetWith (cfg : Config) (rv : ResetValues) (resetPc : Word) : State where
  cfg       := cfg
  regs      := Vector.replicate 32 0
  pc        := resetPc
  priv      := .m
  virt      := false
  elp       := rv.elp
  lpl       := rv.lpl
  mseccfg   := ⟨rv.mseccfgMFCFIE⟩
  menvcfg   := ⟨rv.menvcfgCFIE, rv.menvcfgSFCFIE⟩
  henvcfg   := ⟨rv.henvcfgCFIE, rv.henvcfgSFCFIE⟩
  mstatus   :=
    { ufcfie := rv.mstatusUFCFIE, mpelp := rv.mstatusMPELP, spelp := rv.mstatusSPELP, mpp := leastPriv cfg,
      mpv := false, mpie := false, mie := false, spp := .u, spie := false, sie := false, tsr := false }
  vsstatus  := { ufcfie := rv.vsstatusUFCFIE, spelp := rv.vsstatusSPELP, spp := .u, spie := false, sie := false }
  hstatus   := ⟨false, false⟩
  mtrap     := TrapCsrs.reset
  strap     := TrapCsrs.reset
  vstrap    := TrapCsrs.reset
  deleg     := ⟨0, 0, 0, 0⟩
  mem       := []
  inputs    := []
  targets   := []
  freeCount := 0

/-- The machine right after reset. -/
def State.reset : State := State.resetWith Config.default ResetValues.default 0

end Sys2Proof.Machine
end

