-- ==== Sys2Proof/Machine/Ops.lean ====
section
/-! DEFINITION. The named operations on registers, memory and the mode that the meanings share; taking a trap and
returning from one. -/

namespace Sys2Proof.Machine

open Sys2Proof

/-! Registers (R7, R10). -/

/-- `x[r]`; `x0` reads 0. -/
def State.reg (s : State) (r : RegNum) : Word :=
  if r = 0 then 0 else s.regs[r.toNat]'r.isLt

/-- `x[r] <- v`; a write to `x0` is discarded. -/
def State.setReg (s : State) (r : RegNum) (v : Word) : State :=
  if r = 0 then s else { s with regs := s.regs.set r.toNat v r.isLt }

/-- `pc <- t`. -/
def State.setPc (s : State) (t : Word) : State := { s with pc := t }

/-- `pc <- pc + len` (R11). -/
def State.advance (s : State) (len : Nat) : State := s.setPc (pcPlus s.cfg.xlen s.pc len)

/-- `ELP <- e`. -/
def State.setElp (s : State) (e : Elp) : State := { s with elp := e }

/-- A new content of `lpl`. -/
def State.setLpl (s : State) (l : Lpl) : State := { s with lpl := l }

/-- The Zimop-defined behaviour of a 32-bit `mop.rr` word: `x[rd] <- 0; pc <- pc + 4` (R160 to R162). -/
def State.zimopFallback (s : State) (rd : RegNum) : State := (s.setReg rd 0).advance 4

/-! Memory (R40, R41). -/

/-- The byte at an address, if memory lists one. -/
def Memory.read : Memory → Nat → Option Byte
  | [], _ => none
  | (k, b) :: rest, a => if k = a then some b else Memory.read rest a

/-- Store a byte at an address, keeping the addresses strictly rising. -/
def Memory.write : Memory → Nat → Byte → Memory
  | [], a, v => [(a, v)]
  | (k, b) :: rest, a, v =>
    if a < k then (a, v) :: (k, b) :: rest
    else if a = k then (a, v) :: rest
    else (k, b) :: Memory.write rest a v

/-- The canonical form: addresses strictly rising, so equal memories are equal lists. -/
abbrev Memory.wf (m : Memory) : Prop := m.Pairwise fun c d => c.1 < d.1

/-- `MemRead(addr, 1)`. -/
def State.readByte (s : State) (a : Word) : Option Byte := s.mem.read a.toNat

/-- `MemWrite(addr, n, v)`, its bytes in order of address, modulo `2^XLEN` (R7, R41; log 19). No instruction uses it (R44):
it places a program in memory. -/
def State.storeBytes (s : State) (a : Word) : List Byte → State
  | [] => s
  | b :: rest =>
    ({ s with mem := s.mem.write a.toNat b }).storeBytes (pcPlus s.cfg.xlen a 1) rest

/-- A little-endian 16-bit parcel, `MemRead(addr, 2)` (R41). -/
def State.readParcel (s : State) (a : Word) : Option (BitVec 16) :=
  match s.readByte a, s.readByte (pcPlus s.cfg.xlen a 1) with
  | some lo, some hi => some (hi ++ lo)
  | _, _ => none

/-- The instruction word at `pc`: a parcel, or `{MemRead(pc+2, 2), MemRead(pc, 2)}` (R41, R74). -/
def State.fetch (s : State) : Option InstWord :=
  match s.readParcel s.pc with
  | none => none
  | some p0 =>
    if isLong p0 then
      match s.readParcel (pcPlus s.cfg.xlen s.pc 2) with
      | none => none
      | some p1 => some (.word (p1 ++ p0))
    else some (.half p0)

/-! What the environment says about this step (log 8). -/

/-- The input of this step; an empty list says: no interrupt, no fetch exception. -/
def State.input (s : State) : StepInput := s.inputs.headD ⟨none, none⟩

/-- The input of this step is consumed. -/
def State.popInput (s : State) : State := { s with inputs := s.inputs.tail }

/-! Causes (R191, R194, R172, R200). Code 2 is the spec's (D19); the others are PRESUMED (log 11). -/

/-- Illegal-instruction, exception code 2 (R191, D19). -/
def Cause.illegalInstruction : Cause := ⟨false, 2⟩

/-- Instruction-address-misaligned (R172). -/
def Cause.instructionAddressMisaligned : Cause := ⟨false, 0⟩

/-- Virtual-instruction (R200). -/
def Cause.virtualInstruction : Cause := ⟨false, 22⟩

/-- An interrupt with the code the oracle gives (R193). -/
def Cause.ofIrq (code : BitVec 6) : Cause := ⟨true, code⟩

/-- The cause of a fetch exception (R194). -/
def FetchFault.cause : FetchFault → Cause
  | .addressBreakpoint => ⟨false, 3⟩
  | .pageFault => ⟨false, 12⟩
  | .guestPageFault => ⟨false, 20⟩
  | .accessFault => ⟨false, 1⟩

/-! Taking a trap (R195, R196). -/

/-- Is the cause's bit set in the register of its kind? -/
def delegated (exceptions interrupts : BitVec 64) (c : Cause) : Bool :=
  (if c.interrupt then interrupts else exceptions).getLsbD c.code.toNat

/-- The modes that a trap from the current mode may be taken into: implemented, and "the same or a higher" (R196, R202).
DEDUCED (log 9): VS only with `V = 1`, since "`V` stays 1" there (R196). -/
def State.mayTarget (s : State) : TrapMode → Bool
  | .m => true
  | .s => s.cfg.hasS && s.priv != .m
  | .vs => s.cfg.hasS && s.priv != .m && s.virt

/-- The mode that `medeleg`, `mideleg`, `hedeleg`, `hideleg` name (R196). Which bit stands for which cause is PRESUMED
(log 9). -/
def State.delegatedTarget (s : State) (c : Cause) : TrapMode :=
  if s.priv = .m then .m
  else if s.cfg.hasS && delegated s.deleg.medeleg s.deleg.mideleg c then
    if s.virt && delegated s.deleg.hedeleg s.deleg.hideleg c then .vs else .s
  else .m

/-- `TRAP_TARGET`, open (R6, D9, U12): what the oracle says, if it names a mode the trap may be taken into; where it says
nothing, the mode the delegation registers name (log 9). -/
def State.trapTarget (s : State) (c : Cause) : TrapMode :=
  match s.targets with
  | x :: _ => if s.mayTarget x then x else s.delegatedTarget c
  | [] => s.delegatedTarget c

/-- What `SPP` records of the mode trapped from (R196). -/
def Priv.toSpp : Priv → Spp
  | .m => .s
  | .s => .s
  | .u => .u

/-- The mode that `SPP` names (R199, R200). -/
def Spp.toPriv : Spp → Priv
  | .u => .u
  | .s => .s

/-- "`pc <- mtvec` base (plus `4 * cause` for an interrupt in vectored mode)" (R196). -/
def Tvec.entry (x : Xlen) (t : Tvec) (c : Cause) : Word :=
  if c.interrupt && t.vectored then pcPlus x t.base (4 * c.code.toNat) else t.base

/-- `xepc`, `xcause`, `xtval` on a trap (R191, R196); `xtval` receives a free value (log 10). -/
def TrapCsrs.record (t : TrapCsrs) (s : State) (c : Cause) : TrapCsrs :=
  { t with epc := s.pc, cause := c, tval := wrap s.cfg.xlen (Config.freeTrapValue s.freeCount) }

/-- Trap entry into M (R195, R196). `MPV` is written only with `HAS_H` (log 21). As every entry it uses up one answer of the
oracle `TRAP_TARGET` (log 9). -/
def State.enterM (s : State) (c : Cause) : State :=
  { s with
    elp       := .noLpExpected
    mstatus   :=
      { s.mstatus with
        mpelp := s.elp
        mpp   := s.priv
        mpv   := if s.cfg.hasH then s.virt else s.mstatus.mpv
        mpie  := s.mstatus.mie
        mie   := false }
    mtrap     := s.mtrap.record s c
    priv      := .m
    virt      := false
    pc        := s.mtrap.tvec.entry s.cfg.xlen c
    targets   := s.targets.tail
    freeCount := s.freeCount + 1 }

/-- Trap entry into S, which is HS with the hypervisor extension (R195, R196). -/
def State.enterS (s : State) (c : Cause) : State :=
  { s with
    elp       := .noLpExpected
    mstatus   :=
      { s.mstatus with
        spelp := s.elp
        spp   := s.priv.toSpp
        spie  := s.mstatus.sie
        sie   := false }
    hstatus   := { s.hstatus with spv := if s.cfg.hasH then s.virt else s.hstatus.spv }
    strap     := s.strap.record s c
    priv      := .s
    virt      := false
    pc        := s.strap.tvec.entry s.cfg.xlen c
    targets   := s.targets.tail
    freeCount := s.freeCount + 1 }

/-- Trap entry into VS: "`priv <- S`, `V` stays 1" (R195, R196). -/
def State.enterVS (s : State) (c : Cause) : State :=
  { s with
    elp       := .noLpExpected
    vsstatus  :=
      { s.vsstatus with
        spelp := s.elp
        spp   := s.priv.toSpp
        spie  := s.vsstatus.sie
        sie   := false }
    vstrap    := s.vstrap.record s c
    priv      := .s
    virt      := true
    pc        := s.vstrap.tvec.entry s.cfg.xlen c
    targets   := s.targets.tail
    freeCount := s.freeCount + 1 }

/-- `TrapEntry(cause, x)` (R195, R196). -/
def State.trapEntry (s : State) (x : TrapMode) (c : Cause) : State :=
  match x with
  | .m => s.enterM c
  | .s => s.enterS c
  | .vs => s.enterVS c

/-- A trap with this cause is taken, into the mode `TRAP_TARGET` gives. -/
def State.takeTrap (s : State) (c : Cause) : State := s.trapEntry (s.trapTarget c) c

/-- `raise IllegalInstruction` (R7): no other effect than the trap. -/
def State.raiseIllegal (s : State) : State := s.takeTrap Cause.illegalInstruction

/-! Returning from a trap (R198 to R200). -/

/-- `MRET` in M-mode (R198). Without `HAS_H`, `V` stays 0 (R25, log 21). -/
def State.returnM (s : State) : State :=
  { s with
    elp     := s.mstatus.mpelp
    priv    := s.mstatus.mpp
    virt    := decide (s.mstatus.mpp ≠ .m) && s.cfg.hasH && s.mstatus.mpv
    mstatus :=
      { s.mstatus with
        mpelp := .noLpExpected
        mie   := s.mstatus.mpie
        mpie  := true
        mpp   := leastPriv s.cfg
        mpv   := false }
    pc      := s.mtrap.epc }

/-- `SRET` with `V = 0` (R199). -/
def State.returnS (s : State) : State :=
  { s with
    elp     := s.mstatus.spelp
    priv    := s.mstatus.spp.toPriv
    virt    := s.cfg.hasH && s.hstatus.spv
    mstatus :=
      { s.mstatus with
        spelp := .noLpExpected
        sie   := s.mstatus.spie
        spie  := true
        spp   := .u }
    hstatus := { s.hstatus with spv := false }
    pc      := s.strap.epc }

/-- `SRET` with `V = 1` (R200). -/
def State.returnVS (s : State) : State :=
  { s with
    elp      := s.vsstatus.spelp
    priv     := s.vsstatus.spp.toPriv
    virt     := true
    vsstatus :=
      { s.vsstatus with
        spelp := .noLpExpected
        sie   := s.vsstatus.spie
        spie  := true
        spp   := .u }
    pc       := s.vstrap.epc }

end Sys2Proof.Machine
end

