-- ==== Sys2Proof/Machine/Flags.lean ====
section
/-! DEFINITION. The flag computations: whether forward-edge CFI is active (R26), which instructions expect a landing pad
(R90), and the update of `ELP` by an indirect jump (R91 to R93). -/

namespace Sys2Proof.Machine

open Sys2Proof

/-- `xFCFIE`, the listing of R26. -/
def State.xfcfie (s : State) : Bool :=
  if s.priv = .m then s.mseccfg.mfcfie
  else if s.menvcfg.cfie = true ∧ s.virt = false ∧ s.priv = .s then s.menvcfg.sfcfie
  else if s.menvcfg.cfie = true ∧ s.virt = false ∧ s.priv = .u then s.mstatus.ufcfie
  else if s.menvcfg.cfie = true ∧ s.henvcfg.cfie = true ∧ s.virt = true ∧ s.priv = .s then s.henvcfg.sfcfie
  else if s.menvcfg.cfie = true ∧ s.henvcfg.cfie = true ∧ s.virt = true ∧ s.priv = .u then s.vsstatus.ufcfie
  else false

/-- `rs1` of `JALR`, `C.JR`, `C.JALR` (R90, R173, R174). -/
def jumpRs1 : Instr → Option RegNum
  | .jalr _ rs1 _ => some rs1
  | .cJr rs1 => some rs1
  | .cJalr rs1 => some rs1
  | _ => none

/-- `is_indirect_call_jump` (R90). -/
def isIndirectCallJump (i : Instr) : Bool :=
  match jumpRs1 i with
  | some rs1 => rs1 != 1 && rs1 != 5
  | none => false

/-- `is_sw_guarded_jump` (R90): the 32-bit `JALR` only. -/
def isSwGuardedJump : Instr → Bool
  | .jalr rd rs1 _ => rd == 7 && rs1 == 7
  | _ => false

/-- `is_lp_expected` (R90). -/
def isLpExpected (i : Instr) : Bool := isIndirectCallJump i && !isSwGuardedJump i

/-- The CFI side effect of a completed jump (R91 to R93, R97). -/
def State.expectPad (s : State) (i : Instr) : State :=
  if s.xfcfie && isLpExpected i then s.setElp .lpExpected else s

/-- Is the decoded word an `lpcll`? -/
def isLpcll : Decoded → Bool
  | .instr (.lpcll _) => true
  | _ => false

/-- The landing pad requirement fails on what was fetched (R95, R96 line 4): CFI is active, a landing pad is expected,
and this is no `lpcll`. -/
def State.padMissing (s : State) (d : Decoded) : Bool :=
  s.xfcfie && s.elp == .lpExpected && !isLpcll d

end Sys2Proof.Machine
end

