-- ==== Sys2Proof/Machine/Base.lean ====
section
/-! DEFINITION. `LUI`, `ADDI`, `C.SLLI` (45_base_instructions.md). -/

namespace Sys2Proof.Machine

open Sys2Proof

/-- `LUI` (R170). -/
def execLui (rd : RegNum) (imm20 : BitVec 20) (s : State) : Host.Outcome State Fault Refusal :=
  .next ((s.setReg rd (luiValue s.cfg.xlen imm20)).advance 4)

/-- `ADDI` (R171). -/
def execAddi (rd rs1 : RegNum) (imm12 : BitVec 12) (s : State) : Host.Outcome State Fault Refusal :=
  .next ((s.setReg rd (addImm s.cfg.xlen (s.reg rs1) imm12)).advance 4)

/-- `C.SLLI` (R175); `rd = 0` and `shamt = 0` are hints that change nothing but the pc. -/
def execCSlli (rd : RegNum) (shamt : BitVec 6) (s : State) : Host.Outcome State Fault Refusal :=
  .next ((s.setReg rd (shiftLeft s.cfg.xlen (s.reg rd) shamt)).advance 2)

end Sys2Proof.Machine
end

