-- ==== Sys2Proof/Machine/Jumps.lean ====
section
/-! DEFINITION. `JALR`, `C.JR`, `C.JALR`: base semantics (45_base_instructions.md) and CFI side effect
(40_indirect_branch_tracking.md). -/

namespace Sys2Proof.Machine

open Sys2Proof

/-- `JALR` (R172, R91, R94). A misaligned target, possible only without `HAS_C`, raises on the jump itself and nothing is
written (R43, D15). -/
def execJalr (rd rs1 : RegNum) (imm12 : BitVec 12) (s : State) : Host.Outcome State Fault Refusal :=
  if s.cfg.hasC = false ∧ (jalrTarget s.cfg.xlen (s.reg rs1) imm12).getLsbD 1 = true then
    .next (s.takeTrap Cause.instructionAddressMisaligned)
  else
    .next (((s.setPc (jalrTarget s.cfg.xlen (s.reg rs1) imm12)).setReg rd (pcPlus s.cfg.xlen s.pc 4)).expectPad
      (.jalr rd rs1 imm12))

/-- `C.JR` (R173, R92). -/
def execCJr (rs1 : RegNum) (s : State) : Host.Outcome State Fault Refusal :=
  .next ((s.setPc (clearBit0 (s.reg rs1))).expectPad (.cJr rs1))

/-- `C.JALR` (R174, R93). -/
def execCJalr (rs1 : RegNum) (s : State) : Host.Outcome State Fault Refusal :=
  .next (((s.setPc (clearBit0 (s.reg rs1))).setReg 1 (pcPlus s.cfg.xlen s.pc 2)).expectPad (.cJalr rs1))

end Sys2Proof.Machine
end

