-- ==== Sys2Proof/Machine/LabelMatch.lean ====
section
/-! DEFINITION. `lpcml` and `lpcul` (42_label_match.md). -/

namespace Sys2Proof.Machine

open Sys2Proof

/-- A label check of 8 bits against a field of `lpl` (R130, R131, R162). -/
def State.checkLabel (s : State) (field imm : BitVec 8) : State :=
  if s.xfcfie then if field ≠ imm then s.raiseIllegal else s.advance 4
  else s.zimopFallback 0

/-- `lpcml MLPL` (R130). -/
def execLpcml (mlpl : BitVec 8) (s : State) : Host.Outcome State Fault Refusal :=
  .next (s.checkLabel s.lpl.ml mlpl)

/-- `lpcul ULPL` (R131). -/
def execLpcul (ulpl : BitVec 8) (s : State) : Host.Outcome State Fault Refusal :=
  .next (s.checkLabel s.lpl.ul ulpl)

end Sys2Proof.Machine
end

