-- ==== Sys2Proof/Machine/LabelSet.lean ====
section
/-! DEFINITION. `lpsll`, `lpsml`, `lpsul` (43_label_set.md). -/

namespace Sys2Proof.Machine

open Sys2Proof

/-- A new content of `lpl` while active, the Zimop fallback otherwise (R140 to R142, R162). -/
def State.setLabel (s : State) (l : Lpl) : State :=
  if s.xfcfie then (s.setLpl l).advance 4 else s.zimopFallback 0

/-- `lpsll LLPL` (R140): the operation as the source states it. No word selects it (R66, log 15). -/
def execLpsll (llpl : BitVec 9) (s : State) : Host.Outcome State Fault Refusal :=
  .next (s.setLabel ⟨llpl, 0, 0⟩)

/-- `lpsml MLPL` (R141). -/
def execLpsml (mlpl : BitVec 8) (s : State) : Host.Outcome State Fault Refusal :=
  .next (s.setLabel { s.lpl with ml := mlpl })

/-- `lpsul ULPL` (R142). -/
def execLpsul (ulpl : BitVec 8) (s : State) : Host.Outcome State Fault Refusal :=
  .next (s.setLabel { s.lpl with ul := ulpl })

end Sys2Proof.Machine
end

