-- ==== Sys2Proof/Machine/LandingPad.lean ====
section
/-! DEFINITION. `lpcll` and `lpcnl` (41_landing_pad.md). -/

namespace Sys2Proof.Machine

open Sys2Proof

/-- `lpcll FLPL` (R110 to R112, R162). -/
def execLpcll (flpl : BitVec 10) (s : State) : Host.Outcome State Fault Refusal :=
  if s.xfcfie then
    if aligned4 s.pc = false then .next s.raiseIllegal
    else if flpl ≠ firstLabel (s.reg 7) ∧ flpl ≠ 0 then .next s.raiseIllegal
    else .next ((s.setElp .noLpExpected).advance 4)
  else .next (s.zimopFallback 0)

/-- `lpcnl NLPL` (R113, R162). -/
def execLpcnl (nlpl : BitVec 10) (s : State) : Host.Outcome State Fault Refusal :=
  if s.xfcfie then
    if nlpl ≠ nextLabel (s.reg 7) then .next s.raiseIllegal else .next (s.advance 4)
  else .next (s.zimopFallback 0)

end Sys2Proof.Machine
end

