-- ==== Sys2Proof/Machine/TrapReturn.lean ====
section
/-! DEFINITION. `MRET` and `SRET` (60_exceptions.md). -/

namespace Sys2Proof.Machine

open Sys2Proof

/-- `MRET` (R198): "illegal-instruction when executed below M". -/
def execMret (s : State) : Host.Outcome State Fault Refusal :=
  if s.priv = .m then .next s.returnM else .next s.raiseIllegal

/-- `SRET` (R199, R200). With `V = 0`: illegal-instruction in U-mode, and in S-mode with `TSR`. With `V = 1`:
virtual-instruction with `VTSR`. PRESUMED (log 13): illegal-instruction without `HAS_S`, virtual-instruction in VU-mode. -/
def execSret (s : State) : Host.Outcome State Fault Refusal :=
  if s.cfg.hasS = false then .next s.raiseIllegal
  else if s.virt then
    if s.priv = .u ∨ s.hstatus.vtsr = true then .next (s.takeTrap Cause.virtualInstruction)
    else .next s.returnVS
  else if s.priv = .u ∨ (s.priv = .s ∧ s.mstatus.tsr = true) then .next s.raiseIllegal
  else .next s.returnS

end Sys2Proof.Machine
end

