-- ==== Sys2Proof/Machine/Zimop.lean ====
section
/-! DEFINITION. The Zimop fallbacks `mop.rr.0` and `mop.rr.1` with `rd ≠ 0` (44_zimop_fallback.md). -/

namespace Sys2Proof.Machine

open Sys2Proof

/-- `mop.rr.0` (R160): bits 24:15 are ignored, active or not. -/
def execMopRr0 (rd : RegNum) (s : State) : Host.Outcome State Fault Refusal :=
  .next (s.zimopFallback rd)

/-- `mop.rr.1` (R161). -/
def execMopRr1 (rd : RegNum) (s : State) : Host.Outcome State Fault Refusal :=
  .next (s.zimopFallback rd)

end Sys2Proof.Machine
end

