-- ==== Sys2Proof/Machine/Dispatch.lean ====
section
/-! DEFINITION. One arm per instruction: "execute inst by its own rule" (R96 lines 5 and 6). -/

namespace Sys2Proof.Machine

open Sys2Proof

def exec (i : Instr) (s : State) : Host.Outcome State Fault Refusal :=
  match i with
  | .lpcll flpl => Sys2Proof.Machine.execLpcll flpl s
  | .lpcnl nlpl => Sys2Proof.Machine.execLpcnl nlpl s
  | .lpcml mlpl => Sys2Proof.Machine.execLpcml mlpl s
  | .lpcul ulpl => Sys2Proof.Machine.execLpcul ulpl s
  | .lpsll llpl => Sys2Proof.Machine.execLpsll llpl s
  | .lpsml mlpl => Sys2Proof.Machine.execLpsml mlpl s
  | .lpsul ulpl => Sys2Proof.Machine.execLpsul ulpl s
  | .mopRr0 rd _ => Sys2Proof.Machine.execMopRr0 rd s
  | .mopRr1 rd _ => Sys2Proof.Machine.execMopRr1 rd s
  | .lui rd imm20 => Sys2Proof.Machine.execLui rd imm20 s
  | .addi rd rs1 imm12 => Sys2Proof.Machine.execAddi rd rs1 imm12 s
  | .jalr rd rs1 imm12 => Sys2Proof.Machine.execJalr rd rs1 imm12 s
  | .cJr rs1 => Sys2Proof.Machine.execCJr rs1 s
  | .cJalr rs1 => Sys2Proof.Machine.execCJalr rs1 s
  | .cSlli rd shamt => Sys2Proof.Machine.execCSlli rd shamt s
  | .mret => Sys2Proof.Machine.execMret s
  | .sret => Sys2Proof.Machine.execSret s

end Sys2Proof.Machine
end

