-- ==== Sys2Proof/Machine/Sequence.lean ====
section
/-! DEFINITION. The order of one step (40_indirect_branch_tracking.md R96), over whatever executes an instruction, and
the placing of an instruction word where the next step fetches. -/

namespace Sys2Proof.Machine

open Sys2Proof

/-- R96 lines 4 to 6 on what was fetched: the landing pad requirement comes before any meaning, also for a word that no
row selects (R95: "anything"). -/
def runFetched (run : Instr → State → Host.Outcome State Fault Refusal) (w : InstWord) (s : State) :
    Host.Outcome State Fault Refusal :=
  if s.padMissing (decode s.cfg w) then .next s.raiseIllegal
  else
    match decode s.cfg w with
    | .instr i => run i s
    | .rejected why => .refused (.undecodable why w)

/-- R96 lines 1 to 6: an interrupt, then a fetch exception, then the instruction (priority: R194, D10). -/
def stepWith (run : Instr → State → Host.Outcome State Fault Refusal) (s : State) : Host.Outcome State Fault Refusal :=
  match s.input.irq with
  | some code => .next (s.popInput.takeTrap (Cause.ofIrq code))
  | none =>
    match s.input.fetchFault with
    | some f => .next (s.popInput.takeTrap f.cause)
    | none =>
      match s.popInput.fetch with
      | none => .fault (.unwrittenFetch s.pc)
      | some w => runFetched run w s.popInput

/-- The next step's input says: no interrupt, no fetch exception. -/
def quietHead : List StepInput → List StepInput
  | [] => []
  | _ :: rest => ⟨none, none⟩ :: rest

/-- The instruction whose bits are `w` (R41) stands at `pc`, and nothing keeps the next step from running it (log 5). -/
def State.placeWord (s : State) (nbits w : Nat) : State :=
  ({ s with inputs := quietHead s.inputs }).storeBytes s.pc (wordBytes (w % 2 ^ nbits))

end Sys2Proof.Machine
end

