-- ==== Sys2Proof/Machine/Step.lean ====
section
/-! DEFINITION. One step of the hart (R3, R96). -/

namespace Sys2Proof.Machine

open Sys2Proof

/-- One step: an interrupt is taken, or one instruction is executed. -/
def step : State → Host.Outcome State Fault Refusal := stepWith exec

/-- The state with the instruction stored where step fetches its next instruction. -/
def State.withFetchWord (s : State) (nbits w : Nat) : State := s.placeWord nbits w

end Sys2Proof.Machine
end

