-- ==== Sys2Proof/Machine/CsrFields.lean ====
section
/-! DEFINITION. Software access to the ten CSR fields by name (10_state.md section 5, R202, D4, D20, D21), and to `lpl`
under the parameter `LPL_ACCESS` (R13, D5). No instruction of the table makes such an access (log 17). -/

namespace Sys2Proof.Machine

open Sys2Proof

/-- The ten fields (R15 to R24) and the `sstatus` view of `SPELP` (R23). -/
inductive CsrField where
  | mseccfgMFCFIE
  | menvcfgCFIE
  | menvcfgSFCFIE
  | mstatusUFCFIE
  | henvcfgCFIE
  | henvcfgSFCFIE
  | vsstatusUFCFIE
  | mstatusMPELP
  | mstatusSPELP
  | vsstatusSPELP
  | sstatusSPELP
deriving DecidableEq, Repr

/-- The bit that an `ELP` value is (R7). -/
def Elp.toBit : Elp → Bool
  | .noLpExpected => false
  | .lpExpected => true

/-- The `ELP` value of a bit (R7). -/
def Elp.ofBit : Bool → Elp
  | false => .noLpExpected
  | true => .lpExpected

/-- A field holds 0 or 1. "`sstatus.SPELP` is `mstatus.SPELP` when `V=0` and `vsstatus.SPELP` when `V=1`" (D20). -/
def State.csrField (s : State) : CsrField → Bool
  | .mseccfgMFCFIE => s.mseccfg.mfcfie
  | .menvcfgCFIE => s.menvcfg.cfie
  | .menvcfgSFCFIE => s.menvcfg.sfcfie
  | .mstatusUFCFIE => s.mstatus.ufcfie
  | .henvcfgCFIE => s.henvcfg.cfie
  | .henvcfgSFCFIE => s.henvcfg.sfcfie
  | .vsstatusUFCFIE => s.vsstatus.ufcfie
  | .mstatusMPELP => s.mstatus.mpelp.toBit
  | .mstatusSPELP => s.mstatus.spelp.toBit
  | .vsstatusSPELP => s.vsstatus.spelp.toBit
  | .sstatusSPELP => if s.virt then s.vsstatus.spelp.toBit else s.mstatus.spelp.toBit

/-- A write of one named field. -/
def State.setCsrField (s : State) (f : CsrField) (b : Bool) : State :=
  match f with
  | .mseccfgMFCFIE => { s with mseccfg := ⟨b⟩ }
  | .menvcfgCFIE => { s with menvcfg := { s.menvcfg with cfie := b } }
  | .menvcfgSFCFIE => { s with menvcfg := { s.menvcfg with sfcfie := b } }
  | .mstatusUFCFIE => { s with mstatus := { s.mstatus with ufcfie := b } }
  | .henvcfgCFIE => { s with henvcfg := { s.henvcfg with cfie := b } }
  | .henvcfgSFCFIE => { s with henvcfg := { s.henvcfg with sfcfie := b } }
  | .vsstatusUFCFIE => { s with vsstatus := { s.vsstatus with ufcfie := b } }
  | .mstatusMPELP => { s with mstatus := { s.mstatus with mpelp := Elp.ofBit b } }
  | .mstatusSPELP => { s with mstatus := { s.mstatus with spelp := Elp.ofBit b } }
  | .vsstatusSPELP => { s with vsstatus := { s.vsstatus with spelp := Elp.ofBit b } }
  | .sstatusSPELP =>
    if s.virt then { s with vsstatus := { s.vsstatus with spelp := Elp.ofBit b } }
    else { s with mstatus := { s.mstatus with spelp := Elp.ofBit b } }

/-- The field that a name stands for: `sstatus.SPELP` is a view of another bit (R23, D20). -/
def State.homeOf (s : State) : CsrField → CsrField
  | .sstatusSPELP => if s.virt then .vsstatusSPELP else .mstatusSPELP
  | f => f

/-- Does the field exist on this hart (R19 to R21, R24, D21)? -/
def Config.hasField (cfg : Config) : CsrField → Bool
  | .mseccfgMFCFIE => true
  | .menvcfgCFIE => cfg.hasU
  | .menvcfgSFCFIE => cfg.hasU && cfg.hasS
  | .mstatusUFCFIE => cfg.hasU
  | .henvcfgCFIE => cfg.hasH
  | .henvcfgSFCFIE => cfg.hasH && cfg.hasS
  | .vsstatusUFCFIE => cfg.hasH && cfg.hasU
  | .mstatusMPELP => true
  | .mstatusSPELP => cfg.hasS
  | .vsstatusSPELP => cfg.hasH && cfg.hasS
  | .sstatusSPELP => cfg.hasS

/-- May software of the current mode access the field? M-level CSRs in M only, `sstatus` in S and M, `henvcfg` and
`vsstatus` in HS and M (10_state.md section 5, R202). -/
def State.mayAccess (s : State) : CsrField → Bool
  | .mseccfgMFCFIE | .menvcfgCFIE | .menvcfgSFCFIE | .mstatusUFCFIE | .mstatusMPELP | .mstatusSPELP => s.priv == .m
  | .henvcfgCFIE | .henvcfgSFCFIE | .vsstatusUFCFIE | .vsstatusSPELP => s.priv == .m || (s.priv == .s && !s.virt)
  | .sstatusSPELP => s.priv == .m || s.priv == .s

/-- A software write of a field, where it exists and the mode may make it. -/
def State.softwareWrite (s : State) (f : CsrField) (b : Bool) : Option State :=
  if Config.hasField s.cfg (s.homeOf f) && s.mayAccess f then some (s.setCsrField f b) else none

/-- A software read of a field, where it exists and the mode may make it. -/
def State.softwareRead (s : State) (f : CsrField) : Option Bool :=
  if Config.hasField s.cfg (s.homeOf f) && s.mayAccess f then some (s.csrField f) else none

/-! `lpl` under `LPL_ACCESS` (R6, R13, D5, U5; log 24). -/

/-- How privileged the mode (`priv`, `V`) is: M above HS/S above VS above U and VU (R202). -/
def privilegeOf (p : Priv) (v : Bool) : Nat :=
  match p, v with
  | .m, _ => 3
  | .s, false => 2
  | .s, true => 1
  | .u, _ => 0

/-- Two fields of `n` and `m` bits at positions `p` and `q` share no bit. -/
def fieldsApart (p n q m : Nat) : Bool := decide (p + n ≤ q ∨ q + m ≤ p)

/-- The layouts the model uses: the three fields inside `XLEN` bits and apart. DESIGN CHOICE (log 24), safe. -/
def LplAccess.usable (x : Xlen) (a : LplAccess) : Bool :=
  decide (a.llPos + 9 ≤ x.bits) && decide (a.mlPos + 8 ≤ x.bits) && decide (a.ulPos + 8 ≤ x.bits)
    && fieldsApart a.llPos 9 a.mlPos 8 && fieldsApart a.llPos 9 a.ulPos 8 && fieldsApart a.mlPos 8 a.ulPos 8

/-- `LPL_ACCESS` where it is given and its layout is usable. -/
def Config.lplCsr (cfg : Config) : Option LplAccess := cfg.lplAccess.filter (LplAccess.usable cfg.xlen)

/-- `lpl` as the CSR holds it; the bits outside the three fields read 0. DESIGN CHOICE (log 24). -/
def LplAccess.image (a : LplAccess) (l : Lpl) : Word :=
  l.ll.setWidth 64 <<< a.llPos ||| l.ml.setWidth 64 <<< a.mlPos ||| l.ul.setWidth 64 <<< a.ulPos

/-- The three fields of a CSR value. -/
def LplAccess.fields (a : LplAccess) (w : Word) : Lpl :=
  ⟨w.extractLsb' a.llPos 9, w.extractLsb' a.mlPos 8, w.extractLsb' a.ulPos 8⟩

/-- May software of the current mode use the CSR? Bits 9:8 of its number name the lowest mode. PRESUMED (log 24). -/
def State.mayUseCsr (s : State) (csr : BitVec 12) : Bool :=
  decide ((csr.extractLsb' 8 2).toNat ≤ privilegeOf s.priv s.virt)

/-- Is the CSR read-only by its number (bits 11:10 both 1)? PRESUMED (log 24). -/
def csrReadOnly (csr : BitVec 12) : Bool := csr.extractLsb' 10 2 == 3#2

/-- A software read of `lpl` through a CSR number, where `LPL_ACCESS` gives one and the mode may use it. The spec does not say
whether the enables matter for it (N3, D5): they do not here, DESIGN CHOICE (log 24). -/
def State.softwareReadLpl (s : State) (csr : BitVec 12) : Option Word :=
  match Config.lplCsr s.cfg with
  | some a => if csr = a.csr ∧ s.mayUseCsr csr then some (LplAccess.image a s.lpl) else none
  | none => none

/-- A software write of `lpl` through a CSR number, where `LPL_ACCESS` gives one that the mode may write; as for the read,
whatever the enables hold, DESIGN CHOICE (log 24). -/
def State.softwareWriteLpl (s : State) (csr : BitVec 12) (w : Word) : Option State :=
  match Config.lplCsr s.cfg with
  | some a =>
    if csr = a.csr ∧ s.mayUseCsr csr ∧ csrReadOnly csr = false then some (s.setLpl (LplAccess.fields a w)) else none
  | none => none

end Sys2Proof.Machine
end

