-- ==== Sys2Proof/Safety.lean ====
section
/-! DEFINITION. The terms claims use: the frame of an instruction, the invariant of the hart, and what it is to stand at
a valid landing pad. -/

namespace Sys2Proof.Machine

open Sys2Proof

/-! Frames: what a step from `s` to `t` leaves unchanged. -/

/-- Every byte of memory reads as before. -/
def SameMemory (s t : State) : Prop := ∀ a : Nat, t.mem.read a = s.mem.read a

/-- Every register other than `rd` reads as before. -/
def SameRegsBut (rd : RegNum) (s t : State) : Prop := ∀ r : RegNum, r ≠ rd → t.reg r = s.reg r

/-- Every register reads as before. -/
def SameRegs (s t : State) : Prop := ∀ r : RegNum, t.reg r = s.reg r

/-- Every status field, special register and exception register is as before. -/
structure SameCsrs (s t : State) : Prop where
  mseccfg  : t.mseccfg = s.mseccfg
  menvcfg  : t.menvcfg = s.menvcfg
  henvcfg  : t.henvcfg = s.henvcfg
  mstatus  : t.mstatus = s.mstatus
  vsstatus : t.vsstatus = s.vsstatus
  hstatus  : t.hstatus = s.hstatus
  mtrap    : t.mtrap = s.mtrap
  strap    : t.strap = s.strap
  vstrap   : t.vstrap = s.vstrap
  deleg    : t.deleg = s.deleg

/-- Everything is as before but the registers, the pc, `ELP` and `lpl`. -/
structure Frame (s t : State) : Prop where
  memory    : SameMemory s t
  csrs      : SameCsrs s t
  priv      : t.priv = s.priv
  virt      : t.virt = s.virt
  cfg       : t.cfg = s.cfg
  inputs    : t.inputs = s.inputs
  targets   : t.targets = s.targets
  freeCount : t.freeCount = s.freeCount

/-- The enables that the spec lets no instruction of the table and no trap write (R15 to R21, R231). -/
structure SameEnables (s t : State) : Prop where
  mfcfie   : t.mseccfg = s.mseccfg
  menvcfg  : t.menvcfg = s.menvcfg
  henvcfg  : t.henvcfg = s.henvcfg
  ufcfie   : t.mstatus.ufcfie = s.mstatus.ufcfie
  vsufcfie : t.vsstatus.ufcfie = s.vsstatus.ufcfie

/-- Everything but the ten CSR fields is as before (R15 to R24): what a software write of a field leaves alone. -/
structure SameOutsideFields (s t : State) : Prop where
  regs      : SameRegs s t
  pc        : t.pc = s.pc
  priv      : t.priv = s.priv
  virt      : t.virt = s.virt
  elp       : t.elp = s.elp
  lpl       : t.lpl = s.lpl
  memory    : SameMemory s t
  mpp       : t.mstatus.mpp = s.mstatus.mpp
  mpv       : t.mstatus.mpv = s.mstatus.mpv
  mpie      : t.mstatus.mpie = s.mstatus.mpie
  mie       : t.mstatus.mie = s.mstatus.mie
  spp       : t.mstatus.spp = s.mstatus.spp
  spie      : t.mstatus.spie = s.mstatus.spie
  sie       : t.mstatus.sie = s.mstatus.sie
  tsr       : t.mstatus.tsr = s.mstatus.tsr
  vsspp     : t.vsstatus.spp = s.vsstatus.spp
  vsspie    : t.vsstatus.spie = s.vsstatus.spie
  vssie     : t.vsstatus.sie = s.vsstatus.sie
  hstatus   : t.hstatus = s.hstatus
  mtrap     : t.mtrap = s.mtrap
  strap     : t.strap = s.strap
  vstrap    : t.vstrap = s.vstrap
  deleg     : t.deleg = s.deleg
  cfg       : t.cfg = s.cfg
  inputs    : t.inputs = s.inputs
  targets   : t.targets = s.targets
  freeCount : t.freeCount = s.freeCount

/-- A field exists on a hart exactly with the modes it serves (D21): no `SFCFIE` or `SPELP` without `HAS_S`, no `UFCFIE` and
no `menvcfg` without `HAS_U`, no `henvcfg` or `vsstatus` without `HAS_H`. -/
def FieldPresent (cfg : Config) (f : CsrField) : Prop :=
  (f ∈ [.menvcfgSFCFIE, .henvcfgSFCFIE, .mstatusSPELP, .vsstatusSPELP, .sstatusSPELP] → cfg.hasS = true) ∧
  (f ∈ [.mstatusUFCFIE, .vsstatusUFCFIE, .menvcfgCFIE, .menvcfgSFCFIE] → cfg.hasU = true) ∧
  (f ∈ [.henvcfgCFIE, .henvcfgSFCFIE, .vsstatusUFCFIE, .vsstatusSPELP] → cfg.hasH = true)

/-- The accesses that section 5 of 10_state.md and R202 grant: M to every field; S and HS to `henvcfg`, `vsstatus` and
`sstatus`; VS to its `sstatus`; U and VU to none. -/
def AccessGranted (s : State) (f : CsrField) : Prop :=
  s.priv = .m ∨
  (s.priv = .s ∧ s.virt = false ∧
    f ∈ [.henvcfgCFIE, .henvcfgSFCFIE, .vsstatusUFCFIE, .vsstatusSPELP, .sstatusSPELP]) ∨
  (s.priv = .s ∧ s.virt = true ∧ f = .sstatusSPELP)

/-- The pc has moved on by `len` bytes, modulo `2^XLEN` (R11). -/
abbrev PcMoved (len : Nat) (s t : State) : Prop := t.pc.toNat = (s.pc.toNat + len) % 2 ^ s.cfg.xlen.bits

/-- "executes as `x[0] <- 0; pc <- pc + 4`": nothing changes but the pc (R162). -/
structure NoOp (s t : State) : Prop where
  regs  : SameRegs s t
  pc    : PcMoved 4 s t
  elp   : t.elp = s.elp
  lpl   : t.lpl = s.lpl
  frame : Frame s t

/-- `rd` receives `v` if it is not `x0`, which keeps reading 0; every other register is as before. -/
structure RegWritten (rd : RegNum) (v : Nat) (s t : State) : Prop where
  dest   : rd ≠ 0 → (t.reg rd).toNat = v
  x0     : t.reg 0 = 0
  others : SameRegsBut rd s t

/-- `(x[rs1] + sext(imm12)) mod 2^XLEN`, as a number (R171, R172). -/
def State.sumImm (s : State) (rs1 : RegNum) (imm12 : BitVec 12) : Int :=
  (((s.reg rs1).toNat : Int) + imm12.toInt) % (2 ^ s.cfg.xlen.bits : Nat)

/-- `x7[31:22]` as a number (R110). -/
def State.firstLabelNum (s : State) : Nat := (s.reg 7).toNat / 2 ^ 22 % 2 ^ 10

/-- `x7[21:12]` as a number (R113). -/
def State.nextLabelNum (s : State) : Nat := (s.reg 7).toNat / 2 ^ 12 % 2 ^ 10

/-- The seven CFI instructions (R162). -/
def isCfi : Instr → Bool
  | .lpcll _ | .lpcnl _ | .lpcml _ | .lpcul _ | .lpsll _ | .lpsml _ | .lpsul _ => true
  | .mopRr0 _ _ | .mopRr1 _ _ | .lui _ _ | .addi _ _ _ | .jalr _ _ _ | .cJr _ | .cJalr _ | .cSlli _ _ | .mret
  | .sret => false

/-! The invariant. -/

/-- A value that fits `XLEN` bits. -/
abbrev Config.inWidth (cfg : Config) (w : Word) : Prop := w.toNat < 2 ^ cfg.xlen.bits

/-- An address an instruction may stand at: a multiple of 2 with `HAS_C`, of 4 without (R43). -/
abbrev Config.instrAddr (cfg : Config) (w : Word) : Prop :=
  Config.inWidth cfg w ∧ w.getLsbD 0 = false ∧ (cfg.hasC = false → w.getLsbD 1 = false)

/-- The trap registers of a mode: `xepc` and the base of `xtvec` are instruction addresses, `xtval` fits `XLEN`. The spec
says nothing of the alignment of the base of `xtvec` (R45, D14); that it is an instruction address is PRESUMED (log 23). -/
structure TrapCsrs.ok (cfg : Config) (t : TrapCsrs) : Prop where
  epc  : Config.instrAddr cfg t.epc
  tval : Config.inWidth cfg t.tval
  tvec : Config.instrAddr cfg t.tvec.base

/-- The mode exists on a hart with these parameters (R25, D3). -/
def modeExists (cfg : Config) (p : Priv) (v : Bool) : Prop :=
  match p with
  | .m => v = false
  | .s => cfg.hasS = true ∧ (v = true → cfg.hasH = true)
  | .u => cfg.hasU = true ∧ (v = true → cfg.hasH = true)

/-- The invariant of the hart: modes nest (PRESUMED, log 18), memory is canonical, `x0` is zero, values fit `XLEN`, the pc,
the saved pcs and the trap vector bases (PRESUMED, log 23) are instruction addresses, and the current and the saved mode
exist. -/
structure State.Inv (s : State) : Prop where
  needsU   : s.cfg.hasS = true → s.cfg.hasU = true
  needsS   : s.cfg.hasH = true → s.cfg.hasS = true
  memory   : s.mem.wf
  x0       : s.regs[0] = 0
  regs     : ∀ r : RegNum, Config.inWidth s.cfg (s.reg r)
  pc       : Config.instrAddr s.cfg s.pc
  mtrap    : s.mtrap.ok s.cfg
  strap    : s.strap.ok s.cfg
  vstrap   : s.vstrap.ok s.cfg
  mode     : modeExists s.cfg s.priv s.virt
  mpp      : modeExists s.cfg s.mstatus.mpp false

/-! Landing pads. -/

/-- At `pc` stands a valid landing pad for the label in `x7` (R95): 4-byte aligned, an `lpcll`, its label 0 or the
expected one. -/
def State.atPad (s : State) : Prop :=
  aligned4 s.pc = true ∧ ∃ w flpl, s.fetch = some w ∧ decode s.cfg w = .instr (.lpcll flpl) ∧
    (flpl = 0 ∨ flpl = firstLabel (s.reg 7))

/-- The instruction that the next step runs, if it comes to run one: nothing interrupts it and the fetched word decodes
to it. -/
def State.runs (s : State) (i : Instr) : Prop :=
  s.input.irq = none ∧ s.input.fetchFault = none ∧ ∃ w, s.popInput.fetch = some w ∧ decode s.cfg w = .instr i

/-- CFI is active and a landing pad is expected. -/
abbrev State.padDue (s : State) : Prop := s.xfcfie = true ∧ s.elp = .lpExpected

/-- `TRAP_TARGET` may send a trap of the current mode there: the mode is implemented and "the same or a higher" (R196, R202,
D9); VS only with `V = 1` (log 9). -/
def State.targetAllowed (s : State) (x : TrapMode) : Prop :=
  x = .m ∨ (s.priv ≠ .m ∧ s.cfg.hasS = true ∧ (x = .vs → s.virt = true))

/-- The mode a trap is taken into (R196). -/
def TrapMode.priv : TrapMode → Priv
  | .m => .m
  | .s => .s
  | .vs => .s

/-- `V` after a trap into the mode (R196). -/
def TrapMode.virt : TrapMode → Bool
  | .m => false
  | .s => false
  | .vs => true

end Sys2Proof.Machine
end

