-- ==== Sys2Proof/WellFormed.lean ====
section
/-! DEFINITION. Which instructions have a word of their own on a hart of a given configuration. -/

namespace Sys2Proof

/-- `i` is well-formed for `cfg`: its operands are ones that its encoding admits there.
`rd ≠ 0` for the Zimop fallbacks (R160, R161), `rs1 ≠ 0` for `C.JR` and `C.JALR` (R173, R174), `shamt[5] = 0` for `C.SLLI`
on RV32 (R175), `HAS_C` for the 16-bit forms (R74), `LPCNL_ENC` for `lpcnl` (R67); no word selects `lpsll` (R66). -/
def Instr.wf (cfg : Config) : Instr → Bool
  | .lpcll _ => true
  | .lpcnl _ => cfg.lpcnl.isSome
  | .lpcml _ => true
  | .lpcul _ => true
  | .lpsll _ => false
  | .lpsml _ => true
  | .lpsul _ => true
  | .mopRr0 rd _ => rd != 0
  | .mopRr1 rd _ => rd != 0
  | .lui _ _ => true
  | .addi _ _ _ => true
  | .jalr _ _ _ => true
  | .cJr rs1 => cfg.hasC && rs1 != 0
  | .cJalr rs1 => cfg.hasC && rs1 != 0
  | .cSlli _ shamt => cfg.hasC && (cfg.xlen == .rv64 || !shamt.getLsbD 5)
  | .mret => true
  | .sret => true

/-- The length of an instruction in bytes (R60, R173 to R175). -/
def Instr.bytes : Instr → Nat
  | .lpcll _ => 4
  | .lpcnl _ => 4
  | .lpcml _ => 4
  | .lpcul _ => 4
  | .lpsll _ => 4
  | .lpsml _ => 4
  | .lpsul _ => 4
  | .mopRr0 _ _ => 4
  | .mopRr1 _ _ => 4
  | .lui _ _ => 4
  | .addi _ _ _ => 4
  | .jalr _ _ _ => 4
  | .cJr _ => 2
  | .cJalr _ => 2
  | .cSlli _ _ => 2
  | .mret => 4
  | .sret => 4

end Sys2Proof
end

