-- ==== Sys2Proof/Certificates/Slice0/Obligations.lean ====
section
/-! DEFINITION. The statements for the provers, from the numbered rules of spec/. -/

open Sys2Proof Sys2Proof.Machine

/-! Encoding. -/

/-- For every well-formed instruction, decoding the encoded word gives the instruction back (R62, R63, R65, R160, R161,
R170 to R175, R198, R199; for `lpcnl`, R67, under any `LPCNL_ENC` that the MODEL takes as usable, DESIGN CHOICE log 16). -/
def Obligations.DecodeOfEncode : Prop :=
  ∀ (cfg : Config) (i : Instr), i.wf cfg = true → ∃ w, encode cfg i = some w ∧ decode cfg w = .instr i

/-- Every word that decodes, decodes to a well-formed instruction, and that instruction encodes to exactly the word (R62,
R63, R65, R66, R69, R74, R160, R161, R170 to R175, R198, R199). For `lpcnl` (R67) well-formed means that `LPCNL_ENC` is one
that the MODEL takes as usable, and the second part is not claimed, since the model lets that pattern leave bits free: both
are the model's choice, DESIGN CHOICE log 16. -/
def Obligations.EncodeOfDecode : Prop :=
  ∀ (cfg : Config) (w : InstWord) (i : Instr), decode cfg w = .instr i →
    i.wf cfg = true ∧ ((∀ n, i ≠ .lpcnl n) → encode cfg i = some w)

/-- Words written out in 95_test_vectors.md sections 1 to 4 decode to the instructions they stand for. -/
def Obligations.SpecWordsDecode : Prop :=
  decode Config.default (.word 0x83554073) = .instr (.lpcll 0x2AA) ∧
  decode Config.default (.word 0x868BC073) = .instr (.lpcml 0x17) ∧
  decode Config.default (.word 0x8789C073) = .instr (.lpcul 0x13) ∧
  decode Config.default (.word 0x860BC073) = .instr (.lpsml 0x17) ∧
  decode Config.default (.word 0x8709C073) = .instr (.lpsul 0x13) ∧
  decode Config.default (.word 0x86AAC2F3) = .instr (.mopRr1 5 0x155) ∧
  decode Config.default (.word 0xAAB333B7) = .instr (.lui 7 0xAAB33) ∧
  decode Config.default (.word 0x000500E7) = .instr (.jalr 1 10 0) ∧
  decode Config.default (.half 0x9502) = .instr (.cJalr 10) ∧
  decode Config.default (.half 0x03AA) = .instr (.cSlli 7 10) ∧
  decode Config.default (.word 0x30200073) = .instr .mret

/-- R66: every word of the `lpsll` figure is an `lpcll` with `FLPL < 0x200`, the source's two spellings of label 0x1de are
one word, and no word selects `lpsll`. -/
def Obligations.LpsllWordsAreLpcll : Prop :=
  (∀ (cfg : Config) (w : BitVec 32), w &&& 0xFF007FFF = 0x82004073 →
    decode cfg (.word w) = .instr (.lpcll (w.extractLsb' 15 10)) ∧ (w.extractLsb' 15 10).toNat < 0x200) ∧
  (∀ cfg, encode cfg (.lpsll 0x1DE) = some (.word 0x82EF4073) ∧ encode cfg (.lpcll 0x1DE) = some (.word 0x82EF4073)) ∧
  (∀ (cfg : Config) (w : InstWord) (v : BitVec 9), decode cfg w ≠ .instr (.lpsll v))

/-- Without `LPCNL_ENC` no word decodes as `lpcnl` (R67). -/
def Obligations.LpcnlNeedsItsEncoding : Prop :=
  ∀ (cfg : Config) (w : InstWord) (n : BitVec 10), cfg.lpcnlEnc = none → decode cfg w ≠ .instr (.lpcnl n)

/-- The upper half of `a` followed by the lower half of `b` is an `lpcll` exactly when `a[31:16]` is 0x4073 or 0xC073 and
`b[15:9]` is 1000001 (R234). -/
def Obligations.AccidentalPadWords : Prop :=
  ∀ (cfg : Config) (a b : BitVec 32),
    (∃ flpl, decode cfg (.word (b.extractLsb' 0 16 ++ a.extractLsb' 16 16)) = .instr (.lpcll flpl)) ↔
      (a.extractLsb' 16 16 = 0x4073 ∨ a.extractLsb' 16 16 = 0xC073) ∧ b.extractLsb' 9 7 = 0b1000001

/-! Fetch. -/

/-- The word at `pc` is `{byte[pc+3], byte[pc+2], byte[pc+1], byte[pc]}` when the low two bits of the first parcel are 11,
and the first parcel otherwise (R41, R74); addresses modulo `2^XLEN` (D1, log 19). That bits 4:2 of the parcel do not matter,
against row G3 of 93_implementation_defined.md, is the MODEL's choice (log 25). -/
def Obligations.FetchIsLittleEndian : Prop :=
  ∀ (s : State) (b0 b1 : Byte),
    s.mem.read s.pc.toNat = some b0 → s.mem.read ((s.pc.toNat + 1) % 2 ^ s.cfg.xlen.bits) = some b1 →
    (b0.toNat % 4 ≠ 3 → s.fetch = some (.half (b1 ++ b0))) ∧
    (∀ b2 b3 : Byte, b0.toNat % 4 = 3 →
      s.mem.read ((s.pc.toNat + 2) % 2 ^ s.cfg.xlen.bits) = some b2 →
      s.mem.read ((s.pc.toNat + 3) % 2 ^ s.cfg.xlen.bits) = some b3 →
      s.fetch = some (.word (b3 ++ b2 ++ b1 ++ b0)))

/-- A 32-bit or a 16-bit word placed by `withFetchWord` is what the next step executes, unless the landing pad requirement
forbids it (the model's way to load a program, log 5). -/
def Obligations.PlacedWordRuns : Prop :=
  ∀ (s : State) (i : Instr),
    (∀ w : BitVec 32, w.toNat % 4 = 3 → decode s.cfg (.word w) = .instr i → (¬ s.padDue ∨ ∃ flpl, i = .lpcll flpl) →
      step (s.withFetchWord 32 w.toNat) = exec i (s.withFetchWord 32 w.toNat).popInput) ∧
    (∀ h : BitVec 16, h.toNat % 4 ≠ 3 → decode s.cfg (.half h) = .instr i → ¬ s.padDue →
      step (s.withFetchWord 16 h.toNat) = exec i (s.withFetchWord 16 h.toNat).popInput)

/-! Flags. -/

/-- R26: `xFCFIE` in each mode, and that it is a function of `priv`, `V` and seven fields alone. -/
def Obligations.XfcfieListing : Prop :=
  (∀ s : State,
    (s.priv = .m → s.xfcfie = s.mseccfg.mfcfie) ∧
    (s.priv = .s → s.virt = false → s.xfcfie = (s.menvcfg.cfie && s.menvcfg.sfcfie)) ∧
    (s.priv = .u → s.virt = false → s.xfcfie = (s.menvcfg.cfie && s.mstatus.ufcfie)) ∧
    (s.priv = .s → s.virt = true → s.xfcfie = (s.menvcfg.cfie && s.henvcfg.cfie && s.henvcfg.sfcfie)) ∧
    (s.priv = .u → s.virt = true → s.xfcfie = (s.menvcfg.cfie && s.henvcfg.cfie && s.vsstatus.ufcfie))) ∧
  (∀ s t : State, t.priv = s.priv → t.virt = s.virt → t.mseccfg.mfcfie = s.mseccfg.mfcfie →
    t.menvcfg.cfie = s.menvcfg.cfie → t.menvcfg.sfcfie = s.menvcfg.sfcfie → t.mstatus.ufcfie = s.mstatus.ufcfie →
    t.henvcfg.cfie = s.henvcfg.cfie → t.henvcfg.sfcfie = s.henvcfg.sfcfie →
    t.vsstatus.ufcfie = s.vsstatus.ufcfie → t.xfcfie = s.xfcfie)

/-- R90: the predicate `is_lp_expected`. -/
def Obligations.LpExpectedPredicate : Prop :=
  (∀ rd rs1 imm, isLpExpected (.jalr rd rs1 imm) = true ↔ rs1 ≠ 1 ∧ rs1 ≠ 5 ∧ ¬ (rd = 7 ∧ rs1 = 7)) ∧
  (∀ rs1, isLpExpected (.cJr rs1) = true ↔ rs1 ≠ 1 ∧ rs1 ≠ 5) ∧
  (∀ rs1, isLpExpected (.cJalr rs1) = true ↔ rs1 ≠ 1 ∧ rs1 ≠ 5) ∧
  (∀ i, isLpExpected i = true →
    (∃ rd rs1 imm, i = .jalr rd rs1 imm) ∨ (∃ rs1, i = .cJr rs1) ∨ ∃ rs1, i = .cJalr rs1)

/-! The CFI instructions. -/

/-- An `lpcll` that passes its checks clears `ELP` and changes nothing else but the pc, whatever `ELP` held (R110, R111). -/
def Obligations.LpcllLands : Prop :=
  ∀ (s : State) (flpl : BitVec 10), s.xfcfie = true → s.pc.toNat % 4 = 0 →
    (flpl = 0 ∨ flpl.toNat = s.firstLabelNum) →
    ∃ t, exec (.lpcll flpl) s = .next t ∧ t.elp = .noLpExpected ∧ PcMoved 4 s t ∧ SameRegs s t ∧ t.lpl = s.lpl ∧
      Frame s t

/-- An active `lpcll` at a misaligned pc, or with a nonzero label other than `x7[31:22]`, raises illegal-instruction and has
no other effect; the trap saves the `ELP` it found (R110 to R112, R195). -/
def Obligations.LpcllTraps : Prop :=
  ∀ (s : State) (flpl : BitVec 10), s.xfcfie = true →
    (s.pc.toNat % 4 ≠ 0 ∨ (flpl ≠ 0 ∧ flpl.toNat ≠ s.firstLabelNum)) →
    exec (.lpcll flpl) s = .next s.raiseIllegal ∧ SameRegs s s.raiseIllegal ∧ s.raiseIllegal.lpl = s.lpl ∧
      (s.priv = .m → s.raiseIllegal.mstatus.mpelp = s.elp ∧ s.raiseIllegal.mtrap.epc = s.pc)

/-- `lpcnl` compares `NLPL` with `x7[21:12]`, with no exemption for 0 and no alignment rule (R113). -/
def Obligations.LpcnlChecksNextLabel : Prop :=
  ∀ (s : State) (nlpl : BitVec 10), s.xfcfie = true →
    (nlpl.toNat = s.nextLabelNum → ∃ t, exec (.lpcnl nlpl) s = .next t ∧ NoOp s t) ∧
    (nlpl.toNat ≠ s.nextLabelNum → exec (.lpcnl nlpl) s = .next s.raiseIllegal)

/-- `lpcml` compares `MLPL` with `lpl.ML` (R130). -/
def Obligations.LpcmlChecksMiddleLabel : Prop :=
  ∀ (s : State) (mlpl : BitVec 8), s.xfcfie = true →
    (s.lpl.ml = mlpl → ∃ t, exec (.lpcml mlpl) s = .next t ∧ NoOp s t) ∧
    (s.lpl.ml ≠ mlpl → exec (.lpcml mlpl) s = .next s.raiseIllegal)

/-- `lpcul` compares `ULPL` with `lpl.UL` (R131). -/
def Obligations.LpculChecksUpperLabel : Prop :=
  ∀ (s : State) (ulpl : BitVec 8), s.xfcfie = true →
    (s.lpl.ul = ulpl → ∃ t, exec (.lpcul ulpl) s = .next t ∧ NoOp s t) ∧
    (s.lpl.ul ≠ ulpl → exec (.lpcul ulpl) s = .next s.raiseIllegal)

/-- Active, `lpsll` sets `LL` and clears `ML` and `UL` (R140), `lpsml` sets `ML` alone (R141), `lpsul` sets `UL` alone
(R142); nothing else changes but the pc. -/
def Obligations.LabelSetResults : Prop :=
  ∀ s : State, s.xfcfie = true →
    (∀ v, ∃ t, exec (.lpsll v) s = .next t ∧ t.lpl.ll = v ∧ t.lpl.ml = 0 ∧ t.lpl.ul = 0 ∧
      PcMoved 4 s t ∧ SameRegs s t ∧ t.elp = s.elp ∧ Frame s t) ∧
    (∀ v, ∃ t, exec (.lpsml v) s = .next t ∧ t.lpl.ll = s.lpl.ll ∧ t.lpl.ml = v ∧ t.lpl.ul = s.lpl.ul ∧
      PcMoved 4 s t ∧ SameRegs s t ∧ t.elp = s.elp ∧ Frame s t) ∧
    (∀ v, ∃ t, exec (.lpsul v) s = .next t ∧ t.lpl.ll = s.lpl.ll ∧ t.lpl.ml = s.lpl.ml ∧ t.lpl.ul = v ∧
      PcMoved 4 s t ∧ SameRegs s t ∧ t.elp = s.elp ∧ Frame s t)

/-- R162: while CFI is not active every CFI instruction completes and changes nothing but the pc. -/
def Obligations.InactiveCfiIsNoOp : Prop :=
  ∀ (s : State) (i : Instr), isCfi i = true → s.xfcfie = false → ∃ t, exec i s = .next t ∧ NoOp s t

/-- `mop.rr.0` and `mop.rr.1` write 0 to `rd`, active or not, whatever their ignored bits hold (R160, R161). -/
def Obligations.MopRrWritesZero : Prop :=
  ∀ (s : State) (rd : RegNum) (ignored : BitVec 10) (i : Instr),
    (i = .mopRr0 rd ignored ∨ i = .mopRr1 rd ignored) →
    ∃ t, exec i s = .next t ∧ RegWritten rd 0 s t ∧ PcMoved 4 s t ∧ t.elp = s.elp ∧ t.lpl = s.lpl ∧ Frame s t

/-! The base instructions. -/

/-- R170: the encoding of `LUI` and its result, `sext_XLEN({imm20, 0x000})`. -/
def Obligations.LuiResult : Prop :=
  (∀ (cfg : Config) (w : BitVec 32), w &&& 0x0000007F = 0x00000037 →
    decode cfg (.word w) = .instr (.lui (w.extractLsb' 7 5) (w.extractLsb' 12 20))) ∧
  (∀ (s : State) (rd : RegNum) (imm20 : BitVec 20), ∃ (t : State) (v : Nat), exec (.lui rd imm20) s = .next t ∧
    (v : Int) = imm20.toInt * 4096 % (2 ^ s.cfg.xlen.bits : Nat) ∧ RegWritten rd v s t ∧ PcMoved 4 s t ∧
    t.elp = s.elp ∧ t.lpl = s.lpl ∧ Frame s t)

/-- R171: the encoding of `ADDI` and its result modulo `2^XLEN`. -/
def Obligations.AddiResult : Prop :=
  (∀ (cfg : Config) (w : BitVec 32), w &&& 0x0000707F = 0x00000013 →
    decode cfg (.word w) = .instr (.addi (w.extractLsb' 7 5) (w.extractLsb' 15 5) (w.extractLsb' 20 12))) ∧
  (∀ (s : State) (rd rs1 : RegNum) (imm12 : BitVec 12), ∃ (t : State) (v : Nat), exec (.addi rd rs1 imm12) s = .next t ∧
    (v : Int) = s.sumImm rs1 imm12 ∧ RegWritten rd v s t ∧ PcMoved 4 s t ∧ t.elp = s.elp ∧ t.lpl = s.lpl ∧ Frame s t)

/-- `C.SLLI`: `x[rd] <- (x[rd] << shamt) mod 2^XLEN; pc <- pc + 2` (R175). -/
def Obligations.CSlliResult : Prop :=
  ∀ (s : State) (rd : RegNum) (shamt : BitVec 6), ∃ t, exec (.cSlli rd shamt) s = .next t ∧
    RegWritten rd ((s.reg rd).toNat * 2 ^ shamt.toNat % 2 ^ s.cfg.xlen.bits) s t ∧ PcMoved 2 s t ∧
    t.elp = s.elp ∧ t.lpl = s.lpl ∧ Frame s t

/-- `JALR` with a target that may be jumped to: target with bit 0 cleared, link `pc + 4`, and `ELP` set exactly when CFI is
active and a landing pad is expected (R172, R91, R94, R97). -/
def Obligations.JalrResult : Prop :=
  ∀ (s : State) (rd rs1 : RegNum) (imm12 : BitVec 12),
    (s.cfg.hasC = true ∨ s.sumImm rs1 imm12 / 2 % 2 = 0) →
    ∃ t, exec (.jalr rd rs1 imm12) s = .next t ∧
      (t.pc.toNat : Int) = s.sumImm rs1 imm12 - s.sumImm rs1 imm12 % 2 ∧
      RegWritten rd ((s.pc.toNat + 4) % 2 ^ s.cfg.xlen.bits) s t ∧
      (s.xfcfie = true → rs1 ≠ 1 → rs1 ≠ 5 → ¬ (rd = 7 ∧ rs1 = 7) → t.elp = .lpExpected) ∧
      (s.xfcfie = false ∨ rs1 = 1 ∨ rs1 = 5 ∨ (rd = 7 ∧ rs1 = 7) → t.elp = s.elp) ∧
      t.lpl = s.lpl ∧ Frame s t

/-- `JALR` to a target with bit 1 set, without `HAS_C`: instruction-address-misaligned on the jump itself; no register is
written and the `ELP` saved is the old one (R172, R43, D15). The exception code is the model's (log 11). -/
def Obligations.JalrMisalignedTraps : Prop :=
  ∀ (s : State) (rd rs1 : RegNum) (imm12 : BitVec 12), s.cfg.hasC = false → s.sumImm rs1 imm12 / 2 % 2 = 1 →
    ∃ t, exec (.jalr rd rs1 imm12) s = .next t ∧ t = s.takeTrap Cause.instructionAddressMisaligned ∧ SameRegs s t ∧
      (s.priv = .m → t.mstatus.mpelp = s.elp ∧ t.mtrap.epc = s.pc)

/-- `C.JR`: `pc <- x[rs1] & ~1`, nothing linked, `ELP` by R92; `c.jr x7` is no software guarded jump (R173, R92). -/
def Obligations.CJrResult : Prop :=
  ∀ (s : State) (rs1 : RegNum), ∃ t, exec (.cJr rs1) s = .next t ∧
    t.pc.toNat = (s.reg rs1).toNat - (s.reg rs1).toNat % 2 ∧ SameRegs s t ∧
    (s.xfcfie = true → rs1 ≠ 1 → rs1 ≠ 5 → t.elp = .lpExpected) ∧
    (s.xfcfie = false ∨ rs1 = 1 ∨ rs1 = 5 → t.elp = s.elp) ∧ t.lpl = s.lpl ∧ Frame s t

/-- `C.JALR`: the target is read before `x1` receives `pc + 2`; `ELP` by R93 (R174, R93). -/
def Obligations.CJalrResult : Prop :=
  ∀ (s : State) (rs1 : RegNum), ∃ t, exec (.cJalr rs1) s = .next t ∧
    t.pc.toNat = (s.reg rs1).toNat - (s.reg rs1).toNat % 2 ∧
    RegWritten 1 ((s.pc.toNat + 2) % 2 ^ s.cfg.xlen.bits) s t ∧
    (s.xfcfie = true → rs1 ≠ 1 → rs1 ≠ 5 → t.elp = .lpExpected) ∧
    (s.xfcfie = false ∨ rs1 = 1 ∨ rs1 = 5 → t.elp = s.elp) ∧ t.lpl = s.lpl ∧ Frame s t

/-- R98: a completed `JALR`, `C.JR` or `C.JALR` with `rs1` `x1` or `x5` leaves `ELP` unchanged, and after it nothing at the
target is held to be a missing landing pad that was not before. -/
def Obligations.ReturnsAreOutside : Prop :=
  ∀ (s : State) (i : Instr) (rd rs1 : RegNum) (imm12 : BitVec 12),
    (i = .jalr rd rs1 imm12 ∨ i = .cJr rs1 ∨ i = .cJalr rs1) → (rs1 = 1 ∨ rs1 = 5) →
    (s.cfg.hasC = true ∨ s.sumImm rs1 imm12 / 2 % 2 = 0) →
    ∃ t, exec i s = .next t ∧ t.elp = s.elp ∧ ∀ d, t.padMissing d = s.padMissing d

/-! Trap return. -/

/-- `MRET` in M-mode (R198). That `V` is 0 without `HAS_H`, whatever `MPV` holds, is DEDUCED from R25 (log 21). -/
def Obligations.MretResult : Prop :=
  ∀ s : State, s.priv = .m → ∃ t, exec .mret s = .next t ∧
    t.elp = s.mstatus.mpelp ∧ t.pc = s.mtrap.epc ∧ t.priv = s.mstatus.mpp ∧
    (s.mstatus.mpp = .m → t.virt = false) ∧
    (s.mstatus.mpp ≠ .m → s.cfg.hasH = true → t.virt = s.mstatus.mpv) ∧ (s.cfg.hasH = false → t.virt = false) ∧
    t.mstatus.mpelp = .noLpExpected ∧ t.mstatus.mie = s.mstatus.mpie ∧ t.mstatus.mpie = true ∧
    t.mstatus.mpp = leastPriv s.cfg ∧ t.mstatus.mpv = false ∧
    t.mstatus.ufcfie = s.mstatus.ufcfie ∧ t.mstatus.spelp = s.mstatus.spelp ∧ t.mstatus.spp = s.mstatus.spp ∧
    t.mstatus.spie = s.mstatus.spie ∧ t.mstatus.sie = s.mstatus.sie ∧ t.mstatus.tsr = s.mstatus.tsr ∧
    SameRegs s t ∧ t.lpl = s.lpl ∧ SameMemory s t ∧ t.mseccfg = s.mseccfg ∧ t.menvcfg = s.menvcfg ∧
    t.henvcfg = s.henvcfg ∧ t.vsstatus = s.vsstatus ∧ t.hstatus = s.hstatus ∧ t.mtrap = s.mtrap ∧
    t.strap = s.strap ∧ t.vstrap = s.vstrap ∧ t.deleg = s.deleg ∧ t.cfg = s.cfg

/-- `MRET` below M is an illegal instruction: the saved `ELP` is the one in force and `MPELP` is not restored (R198). -/
def Obligations.MretBelowMTraps : Prop :=
  ∀ s : State, s.priv ≠ .m → exec .mret s = .next s.raiseIllegal

/-- `SRET` with `V = 0`, in M-mode or in S-mode without `TSR` (R199). That `V` stays 0 without `HAS_H`, whatever `SPV`
holds, is R199's "if `HAS_H`" and R25 (log 21). -/
def Obligations.SretResult : Prop :=
  ∀ s : State, s.cfg.hasS = true → s.virt = false → (s.priv = .m ∨ (s.priv = .s ∧ s.mstatus.tsr = false)) →
    ∃ t, exec .sret s = .next t ∧
    t.elp = s.mstatus.spelp ∧ t.pc = s.strap.epc ∧ (s.mstatus.spp = .u → t.priv = .u) ∧
    (s.mstatus.spp = .s → t.priv = .s) ∧ t.virt = (s.cfg.hasH && s.hstatus.spv) ∧
    t.mstatus.spelp = .noLpExpected ∧ t.mstatus.sie = s.mstatus.spie ∧ t.mstatus.spie = true ∧
    t.mstatus.spp = .u ∧ t.hstatus.spv = false ∧ t.hstatus.vtsr = s.hstatus.vtsr ∧
    t.mstatus.ufcfie = s.mstatus.ufcfie ∧ t.mstatus.mpelp = s.mstatus.mpelp ∧ t.mstatus.mpp = s.mstatus.mpp ∧
    t.mstatus.mpv = s.mstatus.mpv ∧ t.mstatus.mpie = s.mstatus.mpie ∧ t.mstatus.mie = s.mstatus.mie ∧
    t.mstatus.tsr = s.mstatus.tsr ∧
    SameRegs s t ∧ t.lpl = s.lpl ∧ SameMemory s t ∧ t.mseccfg = s.mseccfg ∧ t.menvcfg = s.menvcfg ∧
    t.henvcfg = s.henvcfg ∧ t.vsstatus = s.vsstatus ∧ t.mtrap = s.mtrap ∧ t.strap = s.strap ∧
    t.vstrap = s.vstrap ∧ t.deleg = s.deleg ∧ t.cfg = s.cfg

/-- `SRET` in VS-mode without `VTSR` uses `vsstatus.SPELP` and leaves `mstatus.SPELP` alone (R200). -/
def Obligations.SretVsResult : Prop :=
  ∀ s : State, s.cfg.hasS = true → s.virt = true → s.priv = .s → s.hstatus.vtsr = false →
    ∃ t, exec .sret s = .next t ∧
    t.elp = s.vsstatus.spelp ∧ t.pc = s.vstrap.epc ∧ (s.vsstatus.spp = .u → t.priv = .u) ∧
    (s.vsstatus.spp = .s → t.priv = .s) ∧ t.virt = true ∧
    t.vsstatus.spelp = .noLpExpected ∧ t.vsstatus.sie = s.vsstatus.spie ∧ t.vsstatus.spie = true ∧
    t.vsstatus.spp = .u ∧ t.vsstatus.ufcfie = s.vsstatus.ufcfie ∧ t.mstatus = s.mstatus ∧ t.hstatus = s.hstatus ∧
    SameRegs s t ∧ t.lpl = s.lpl ∧ SameMemory s t ∧ t.mseccfg = s.mseccfg ∧ t.menvcfg = s.menvcfg ∧
    t.henvcfg = s.henvcfg ∧ t.mtrap = s.mtrap ∧ t.strap = s.strap ∧ t.vstrap = s.vstrap ∧ t.deleg = s.deleg ∧
    t.cfg = s.cfg

/-- `SRET` raises illegal-instruction in U-mode and in S-mode with `TSR` (R199), virtual-instruction in VS-mode with
`VTSR` (R200; its code is the model's, log 11). -/
def Obligations.SretTraps : Prop :=
  ∀ s : State, s.cfg.hasS = true →
    (s.virt = false → (s.priv = .u ∨ (s.priv = .s ∧ s.mstatus.tsr = true)) → exec .sret s = .next s.raiseIllegal) ∧
    (s.virt = true → s.priv = .s → s.hstatus.vtsr = true →
      exec .sret s = .next (s.takeTrap Cause.virtualInstruction))

/-- The MODEL's choice (log 13): `SRET` is an illegal instruction without `HAS_S`, and raises virtual-instruction in
VU-mode. -/
def Obligations.SretChosenTraps : Prop :=
  ∀ s : State,
    (s.cfg.hasS = false → exec .sret s = .next s.raiseIllegal) ∧
    (s.cfg.hasS = true → s.virt = true → s.priv = .u → exec .sret s = .next (s.takeTrap Cause.virtualInstruction))

/-! Traps. -/

/-- "When a trap is taken into privilege mode `x`, the `xPELP` is set to `ELP` and `ELP` is set to `NO_LP_EXPECTED`": for
every cause and mode; the other `xPELP` bits, the registers, `lpl` and memory do not change (R195). -/
def Obligations.TrapSavesElp : Prop :=
  ∀ (s : State) (x : TrapMode) (c : Cause), ∃ t, t = s.trapEntry x c ∧ t.elp = .noLpExpected ∧
    (x = .m → t.mstatus.mpelp = s.elp ∧ t.mstatus.spelp = s.mstatus.spelp ∧ t.vsstatus.spelp = s.vsstatus.spelp) ∧
    (x = .s → t.mstatus.spelp = s.elp ∧ t.mstatus.mpelp = s.mstatus.mpelp ∧ t.vsstatus.spelp = s.vsstatus.spelp) ∧
    (x = .vs → t.vsstatus.spelp = s.elp ∧ t.mstatus.mpelp = s.mstatus.mpelp ∧
      t.mstatus.spelp = s.mstatus.spelp) ∧
    SameRegs s t ∧ t.lpl = s.lpl ∧ SameMemory s t ∧ SameEnables s t ∧ t.cfg = s.cfg

/-- The base part of trap entry into each mode (R191, R196); `xtval` is free and nothing is said of it (log 10). -/
def Obligations.TrapEntryBase : Prop :=
  ∀ (s : State) (c : Cause),
    (∃ t, t = s.trapEntry .m c ∧ t.priv = .m ∧ t.virt = false ∧ t.mtrap.epc = s.pc ∧ t.mtrap.cause = c ∧
      t.mtrap.tvec = s.mtrap.tvec ∧ t.mstatus.mpp = s.priv ∧ (s.cfg.hasH = true → t.mstatus.mpv = s.virt) ∧
      t.mstatus.mpie = s.mstatus.mie ∧ t.mstatus.mie = false ∧
      (c.interrupt = false ∨ s.mtrap.tvec.vectored = false → t.pc = s.mtrap.tvec.base) ∧
      (c.interrupt = true → s.mtrap.tvec.vectored = true →
        t.pc.toNat = (s.mtrap.tvec.base.toNat + 4 * c.code.toNat) % 2 ^ s.cfg.xlen.bits) ∧
      t.strap = s.strap ∧ t.vstrap = s.vstrap ∧ t.hstatus = s.hstatus ∧ t.vsstatus = s.vsstatus ∧
      t.mstatus.spp = s.mstatus.spp ∧ t.mstatus.spie = s.mstatus.spie ∧ t.mstatus.sie = s.mstatus.sie ∧
      t.mstatus.tsr = s.mstatus.tsr) ∧
    (∃ t, t = s.trapEntry .s c ∧ t.priv = .s ∧ t.virt = false ∧ t.strap.epc = s.pc ∧ t.strap.cause = c ∧
      t.strap.tvec = s.strap.tvec ∧ (s.priv = .u → t.mstatus.spp = .u) ∧ (s.priv = .s → t.mstatus.spp = .s) ∧
      (s.cfg.hasH = true → t.hstatus.spv = s.virt) ∧ t.mstatus.spie = s.mstatus.sie ∧ t.mstatus.sie = false ∧
      (c.interrupt = false ∨ s.strap.tvec.vectored = false → t.pc = s.strap.tvec.base) ∧
      (c.interrupt = true → s.strap.tvec.vectored = true →
        t.pc.toNat = (s.strap.tvec.base.toNat + 4 * c.code.toNat) % 2 ^ s.cfg.xlen.bits) ∧
      t.mtrap = s.mtrap ∧ t.vstrap = s.vstrap ∧ t.vsstatus = s.vsstatus ∧ t.hstatus.vtsr = s.hstatus.vtsr ∧
      t.mstatus.mpp = s.mstatus.mpp ∧ t.mstatus.mpv = s.mstatus.mpv ∧ t.mstatus.mpie = s.mstatus.mpie ∧
      t.mstatus.mie = s.mstatus.mie ∧ t.mstatus.tsr = s.mstatus.tsr) ∧
    (∃ t, t = s.trapEntry .vs c ∧ t.priv = .s ∧ t.virt = true ∧ t.vstrap.epc = s.pc ∧ t.vstrap.cause = c ∧
      t.vstrap.tvec = s.vstrap.tvec ∧ (s.priv = .u → t.vsstatus.spp = .u) ∧ (s.priv = .s → t.vsstatus.spp = .s) ∧
      t.vsstatus.spie = s.vsstatus.sie ∧ t.vsstatus.sie = false ∧
      (c.interrupt = false ∨ s.vstrap.tvec.vectored = false → t.pc = s.vstrap.tvec.base) ∧
      (c.interrupt = true → s.vstrap.tvec.vectored = true →
        t.pc.toNat = (s.vstrap.tvec.base.toNat + 4 * c.code.toNat) % 2 ^ s.cfg.xlen.bits) ∧
      t.mtrap = s.mtrap ∧ t.strap = s.strap ∧ t.mstatus = s.mstatus ∧ t.hstatus = s.hstatus)

/-- A trap is never taken into a mode less privileged than the one trapped from, and never into U or VU (R196, R202). -/
def Obligations.TrapNeverLowersPrivilege : Prop :=
  ∀ (s : State) (c : Cause), ∃ t, t = s.takeTrap c ∧ privilegeOf s.priv s.virt ≤ privilegeOf t.priv t.virt ∧ t.priv ≠ .u

/-- The MODEL's reading of the delegation registers, one bit per cause code (PRESUMED, log 9), where the oracle `TRAP_TARGET`
says nothing: below M, to M unless `medeleg` or `mideleg` delegates the cause; then to HS/S unless `V = 1` and `hedeleg` or
`hideleg` delegates it to VS. From M always to M, whatever the oracle says. -/
def Obligations.TrapTargetByDelegation : Prop :=
  ∀ (s : State) (code : BitVec 6), (∀ c, s.priv = .m → s.trapTarget c = .m) ∧ (s.targets = [] →
    (s.priv ≠ .m → s.deleg.medeleg.getLsbD code.toNat = false → s.trapTarget ⟨false, code⟩ = .m) ∧
    (s.priv ≠ .m → s.deleg.mideleg.getLsbD code.toNat = false → s.trapTarget ⟨true, code⟩ = .m) ∧
    (s.priv ≠ .m → s.cfg.hasS = true → s.deleg.medeleg.getLsbD code.toNat = true →
      (s.virt = false ∨ s.deleg.hedeleg.getLsbD code.toNat = false) → s.trapTarget ⟨false, code⟩ = .s) ∧
    (s.priv ≠ .m → s.cfg.hasS = true → s.deleg.mideleg.getLsbD code.toNat = true →
      (s.virt = false ∨ s.deleg.hideleg.getLsbD code.toNat = false) → s.trapTarget ⟨true, code⟩ = .s) ∧
    (s.priv ≠ .m → s.cfg.hasS = true → s.virt = true → s.deleg.medeleg.getLsbD code.toNat = true →
      s.deleg.hedeleg.getLsbD code.toNat = true → s.trapTarget ⟨false, code⟩ = .vs) ∧
    (s.priv ≠ .m → s.cfg.hasS = true → s.virt = true → s.deleg.mideleg.getLsbD code.toNat = true →
      s.deleg.hideleg.getLsbD code.toNat = true → s.trapTarget ⟨true, code⟩ = .vs))

/-- A trap followed at once by the return of its mode resumes with the old `ELP`, pc, mode and interrupt enable, registers
and `lpl` (R195, R198 to R201). -/
def Obligations.TrapThenReturnResumes : Prop :=
  ∀ (s : State) (c : Cause), modeExists s.cfg s.priv s.virt →
    (∃ t, exec .mret (s.trapEntry .m c) = .next t ∧ t.elp = s.elp ∧ t.pc = s.pc ∧ t.priv = s.priv ∧
      t.virt = s.virt ∧ t.mstatus.mie = s.mstatus.mie ∧ SameRegs s t ∧ t.lpl = s.lpl ∧ t.xfcfie = s.xfcfie) ∧
    (s.priv ≠ .m → s.cfg.hasS = true → s.mstatus.tsr = false →
      ∃ t, exec .sret (s.trapEntry .s c) = .next t ∧ t.elp = s.elp ∧ t.pc = s.pc ∧ t.priv = s.priv ∧
        t.virt = s.virt ∧ t.mstatus.sie = s.mstatus.sie ∧ SameRegs s t ∧ t.lpl = s.lpl ∧ t.xfcfie = s.xfcfie) ∧
    (s.priv ≠ .m → s.cfg.hasS = true → s.virt = true → s.hstatus.vtsr = false →
      ∃ t, exec .sret (s.trapEntry .vs c) = .next t ∧ t.elp = s.elp ∧ t.pc = s.pc ∧ t.priv = s.priv ∧
        t.virt = s.virt ∧ t.vsstatus.sie = s.vsstatus.sie ∧ SameRegs s t ∧ t.lpl = s.lpl ∧ t.xfcfie = s.xfcfie)

/-! The step. -/

/-- When nothing interrupts it and the word at `pc` decodes to `i`, the step is `exec i` with the step's input consumed,
unless a landing pad is due and `i` is no `lpcll` (R96). -/
def Obligations.StepRunsDecoded : Prop :=
  ∀ (s : State) (w : InstWord) (i : Instr), s.input.irq = none → s.input.fetchFault = none → s.fetch = some w →
    decode s.cfg w = .instr i → (¬ s.padDue ∨ ∃ flpl, i = .lpcll flpl) → step s = exec i s.popInput

/-- An interrupt is taken before anything else, then a fetch exception, whatever is at `pc` and whatever `ELP` holds
(R96 lines 1 and 2, R193, R194); in M-mode the trap saves `ELP` in `MPELP` and the pc in `mepc`. The codes of fetch
exceptions are the model's (log 11). -/
def Obligations.InterruptThenFetchException : Prop :=
  ∀ s : State,
    (∀ code, s.input.irq = some code → ∃ t, step s = .next t ∧ t = s.popInput.takeTrap ⟨true, code⟩ ∧
      t.elp = .noLpExpected ∧ SameRegs s t ∧ (s.priv = .m → t.mstatus.mpelp = s.elp ∧ t.mtrap.epc = s.pc)) ∧
    (∀ f, s.input.irq = none → s.input.fetchFault = some f → ∃ t, step s = .next t ∧
      t = s.popInput.takeTrap f.cause ∧ t.elp = .noLpExpected ∧ SameRegs s t ∧
      (s.priv = .m → t.mstatus.mpelp = s.elp ∧ t.mtrap.epc = s.pc))

/-- While CFI is active and a landing pad is expected, whatever is fetched that is no `lpcll`, a word of no row
included, raises illegal-instruction: it writes no register and `ELP` is saved as it was (R95, R190 cause a). -/
def Obligations.MissingPadTraps : Prop :=
  ∀ (s : State) (w : InstWord), s.padDue → s.input.irq = none → s.input.fetchFault = none → s.fetch = some w →
    (∀ flpl, decode s.cfg w ≠ .instr (.lpcll flpl)) →
    ∃ t, step s = .next t ∧ t = s.popInput.raiseIllegal ∧ SameRegs s t ∧ t.lpl = s.lpl ∧
      (s.priv = .m → t.mstatus.mpelp = .lpExpected ∧ t.mtrap.epc = s.pc ∧ t.mtrap.cause = ⟨false, 2⟩)

/-- "`lpcll` is the only instruction that can execute when `ELP` is `LP_EXPECTED`": every step from a state in which a
landing pad is due either takes a trap or stands at a valid landing pad, runs it, clears `ELP` and changes nothing else
(R95, R111). -/
def Obligations.OnlyPadRunsWhenDue : Prop :=
  ∀ s t : State, s.padDue → step s = .next t →
    (∃ c, t = s.popInput.takeTrap c) ∨
    (s.atPad ∧ t.elp = .noLpExpected ∧ PcMoved 4 s t ∧ SameRegs s t ∧ t.lpl = s.lpl ∧ Frame s.popInput t)

/-- The protection of forward edges: an indirect call or jump that CFI tracks completes with a landing pad due, and the step
after it either takes a trap or runs a valid landing pad at the target (R91 to R93, R95). A `JALR` without `HAS_C` whose
target has bit 1 set does not complete (R172, JalrMisalignedTraps). -/
def Obligations.JumpLandsOnPadOrTraps : Prop :=
  ∀ (s : State) (i : Instr), s.xfcfie = true → s.elp = .noLpExpected → s.runs i → isLpExpected i = true →
    (∀ rd rs1 imm12, i = .jalr rd rs1 imm12 → s.cfg.hasC = true ∨ s.sumImm rs1 imm12 / 2 % 2 = 0) →
    ∃ t, step s = .next t ∧ t.padDue ∧
      ∀ u, step t = .next u → (∃ c, u = t.popInput.takeTrap c) ∨
        (t.atPad ∧ u.elp = .noLpExpected ∧ PcMoved 4 t u ∧ SameRegs t u)

/-- The complete list of what changes `ELP` (R12): an active jump that expects a landing pad, an active `lpcll`, `xRET`,
a trap. -/
def Obligations.ElpWriters : Prop :=
  ∀ s t : State, step s = .next t → t.elp ≠ s.elp →
    (t.elp = .lpExpected ∧ s.xfcfie = true ∧ ∃ i, s.runs i ∧ isLpExpected i = true) ∨
    (t.elp = .noLpExpected ∧ s.xfcfie = true ∧ ∃ flpl, s.runs (.lpcll flpl)) ∨
    (t.elp = s.mstatus.mpelp ∧ s.priv = .m ∧ s.runs .mret) ∨
    (t.elp = (if s.virt then s.vsstatus.spelp else s.mstatus.spelp) ∧ s.runs .sret) ∨
    (t.elp = .noLpExpected ∧ ∃ c, t = s.popInput.takeTrap c)

/-- `lpl` changes only by an active `lpsml` or `lpsul`, and then in its own field; `lpl.LL` never does; no trap and no
`xRET` changes it (R13, R27, R140 to R142). -/
def Obligations.LplWriters : Prop :=
  ∀ s t : State, step s = .next t → t.lpl.ll = s.lpl.ll ∧
    (t.lpl.ml ≠ s.lpl.ml → s.xfcfie = true ∧ ∃ v, s.runs (.lpsml v) ∧ t.lpl.ml = v) ∧
    (t.lpl.ul ≠ s.lpl.ul → s.xfcfie = true ∧ ∃ v, s.runs (.lpsul v) ∧ t.lpl.ul = v)

/-- The mode changes only by a trap, `MRET` or `SRET` (R25, R203). -/
def Obligations.ModeWriters : Prop :=
  ∀ s t : State, step s = .next t → (t.priv ≠ s.priv ∨ t.virt ≠ s.virt) →
    (s.runs .mret ∧ s.priv = .m) ∨ s.runs .sret ∨ ∃ c, t = s.popInput.takeTrap c

/-- No step writes memory, an enable, a trap vector, a delegation register, `TSR`, `VTSR` or an implementation parameter
(R15 to R21, R44, R45, R49). -/
def Obligations.StepKeepsEnables : Prop :=
  ∀ s t : State, step s = .next t → SameEnables s t ∧ SameMemory s t ∧ t.cfg = s.cfg ∧ t.deleg = s.deleg ∧
    t.mtrap.tvec = s.mtrap.tvec ∧ t.strap.tvec = s.strap.tvec ∧ t.vstrap.tvec = s.vstrap.tvec ∧
    t.mstatus.tsr = s.mstatus.tsr ∧ t.hstatus.vtsr = s.hstatus.vtsr

/-- Every step keeps the invariant: canonical memory, `x0` zero, values within `XLEN`, instruction addresses aligned, modes
that exist (R10, R11, R25, R40, R43). That the bases of `xtvec` are instruction addresses (log 23) and that `HAS_H` needs
`HAS_S` and `HAS_S` needs `HAS_U` (log 18) are PRESUMED by the model. -/
def Obligations.StepKeepsInv : Prop :=
  ∀ s t : State, s.Inv → step s = .next t → t.Inv

/-- The invariant holds after reset, with the default parameters and with any: any `RESET(f)`, any configuration whose modes
nest (PRESUMED, log 18) and any `RESET_PC` that is an instruction address. The zeros of the registers without a reset value
are the MODEL's (log 4, 6). -/
def Obligations.ResetHasInv : Prop :=
  State.reset.Inv ∧
  ∀ (cfg : Config) (rv : ResetValues) (resetPc : Word), (cfg.hasS = true → cfg.hasU = true) →
    (cfg.hasH = true → cfg.hasS = true) → Config.instrAddr cfg resetPc → (State.resetWith cfg rv resetPc).Inv

/-- After reset with the default `RESET(f)` all CFI state is 0 (`ELP`, `lpl`, the seven enables, the three `xPELP`), CFI is
inactive in every mode, and the mode is M (the defaults of R29 and R230, D7; log 3): for every configuration and reset
address, and for `State.reset`. -/
def Obligations.ResetLeavesCfiOff : Prop :=
  (∀ (cfg : Config) (resetPc : Word) (p : Priv) (v : Bool), ∃ s,
    s = State.resetWith cfg ResetValues.default resetPc ∧ s.pc = resetPc ∧
    s.elp = .noLpExpected ∧ s.lpl = ⟨0, 0, 0⟩ ∧
    s.mseccfg.mfcfie = false ∧ s.menvcfg.cfie = false ∧ s.menvcfg.sfcfie = false ∧ s.mstatus.ufcfie = false ∧
    s.henvcfg.cfie = false ∧ s.henvcfg.sfcfie = false ∧ s.vsstatus.ufcfie = false ∧
    s.mstatus.mpelp = .noLpExpected ∧ s.mstatus.spelp = .noLpExpected ∧ s.vsstatus.spelp = .noLpExpected ∧
    s.priv = .m ∧ s.virt = false ∧ ({ s with priv := p, virt := v } : State).xfcfie = false) ∧
  State.reset = State.resetWith Config.default ResetValues.default 0

/-- A step stops only by name: a fault where memory lists no byte to fetch (log 7), a refusal where the fetched word
selects no instruction and no landing pad is due (U7, log 14). The MODEL's choice. -/
def Obligations.StepStopsByName : Prop :=
  ∀ s : State, s.input.irq = none → s.input.fetchFault = none →
    (s.fetch = none → step s = .fault (.unwrittenFetch s.pc)) ∧
    (∀ w why, s.fetch = some w → decode s.cfg w = .rejected why → ¬ s.padDue →
      step s = .refused (.undecodable why w)) ∧
    (∀ w i, s.fetch = some w → decode s.cfg w = .instr i → ∃ t, step s = .next t)

/-! What CFI instructions read, and the CSR fields. -/

/-- Bits 63:32 of `x7` are read by no CFI instruction: two states that differ there only have outcomes that differ there
only (R10, R110, R113). -/
def Obligations.UpperHalfOfX7Unread : Prop :=
  ∀ (s : State) (i : Instr) (v v' : Word), isCfi i = true → v.toNat % 2 ^ 32 = v'.toNat % 2 ^ 32 →
    ∃ t : State, exec i (s.setReg 7 v) = .next (t.setReg 7 v) ∧ exec i (s.setReg 7 v') = .next (t.setReg 7 v')

/-- `sstatus.SPELP` is the same bit as `mstatus.SPELP` with `V = 0` and as `vsstatus.SPELP` with `V = 1`: read and written
through either name (R23, R24, D20). -/
def Obligations.SstatusViewOfSpelp : Prop :=
  ∀ (s : State) (b : Bool),
    (s.virt = false → s.csrField .sstatusSPELP = s.csrField .mstatusSPELP ∧
      s.setCsrField .sstatusSPELP b = s.setCsrField .mstatusSPELP b) ∧
    (s.virt = true → s.csrField .sstatusSPELP = s.csrField .vsstatusSPELP ∧
      s.setCsrField .sstatusSPELP b = s.setCsrField .vsstatusSPELP b)

/-- Software may read and write a CSR field exactly where the field exists (D21) and its mode is granted the access
(section 5 of 10_state.md, R202). The write is read back, through the `sstatus` view too, and changes nothing else: no other of the ten
fields and nothing outside them (R15 to R24, D20). -/
def Obligations.CsrFieldReadBack : Prop :=
  ∀ (s : State) (f : CsrField) (b : Bool),
    ((∃ t, s.softwareWrite f b = some t) ↔ FieldPresent s.cfg (s.homeOf f) ∧ AccessGranted s f) ∧
    ((∃ v, s.softwareRead f = some v) ↔ FieldPresent s.cfg (s.homeOf f) ∧ AccessGranted s f) ∧
    (∀ t, s.softwareWrite f b = some t →
      t.softwareRead f = some b ∧ s.priv ≠ .u ∧
      (∀ g, s.homeOf g = s.homeOf f → t.csrField g = b) ∧
      (∀ g, s.homeOf g ≠ s.homeOf f → t.csrField g = s.csrField g) ∧
      SameOutsideFields s t)

/-- A write to an enable is seen by the very next instruction (R236, D11): M switching its own `MFCFIE` on while a landing
pad is expected makes the next step subject to the landing pad requirement, and switching it off frees it. -/
def Obligations.EnableSeenByNextStep : Prop :=
  ∀ (s t : State) (b : Bool), s.priv = .m → s.elp = .lpExpected → s.softwareWrite .mseccfgMFCFIE b = some t →
    (t.padDue ↔ b = true) ∧
    (∀ w i, s.input.irq = none → s.input.fetchFault = none → s.fetch = some w → decode s.cfg w = .instr i →
      (∀ flpl, i ≠ .lpcll flpl) → step t = if b then .next t.popInput.raiseIllegal else exec i t.popInput)

/-! The parameters of R6. -/

/-- `TRAP_TARGET` is open (R6, D9, U12): whichever mode a trap may be taken into, the oracle may name it and the trap is taken
there, for every cause; every trap uses up one answer. An answer that names another mode counts for nothing, the MODEL's
choice (log 9). -/
def Obligations.TrapTargetIsOpen : Prop :=
  ∀ (s : State) (c : Cause) (x : TrapMode) (rest : List TrapMode), s.targets = x :: rest →
    (s.targetAllowed x → s.takeTrap c = s.trapEntry x c) ∧
    (¬ s.targetAllowed x → s.takeTrap c = s.trapEntry (s.delegatedTarget c) c) ∧
    (s.takeTrap c).targets = rest

/-- `RESET(f)` and `RESET_PC` are parameters (R6, R29, R230, U4): `ELP`, `lpl`, the seven enables, the three `xPELP` and the pc
start at the values given for them, whatever they are. -/
def Obligations.ResetValuesAreParameters : Prop :=
  ∀ (cfg : Config) (rv : ResetValues) (resetPc : Word), ∃ s, s = State.resetWith cfg rv resetPc ∧
    s.pc = resetPc ∧ s.cfg = cfg ∧ s.elp = rv.elp ∧ s.lpl = rv.lpl ∧
    s.mseccfg.mfcfie = rv.mseccfgMFCFIE ∧ s.menvcfg.cfie = rv.menvcfgCFIE ∧ s.menvcfg.sfcfie = rv.menvcfgSFCFIE ∧
    s.mstatus.ufcfie = rv.mstatusUFCFIE ∧ s.henvcfg.cfie = rv.henvcfgCFIE ∧ s.henvcfg.sfcfie = rv.henvcfgSFCFIE ∧
    s.vsstatus.ufcfie = rv.vsstatusUFCFIE ∧ s.mstatus.mpelp = rv.mstatusMPELP ∧
    s.mstatus.spelp = rv.mstatusSPELP ∧ s.vsstatus.spelp = rv.vsstatusSPELP

/-- `lpl` under the parameter `LPL_ACCESS` (R6, R13, D5, U5). With `none` no access to it exists. With a CSR number and a
layout whose fields lie apart inside `XLEN` bits, software of a mode that may use the number reads the three fields at their
positions and writes them and nothing else, and what was read before may be written back later: a handler can save and
restore `lpl` (R201, R233). Who may use a number is PRESUMED; the demand on the layout, and that the accesses answer whatever
`xFCFIE` and the enables hold, are DESIGN CHOICES (log 24). -/
def Obligations.LplAccessByParameter : Prop :=
  (∀ (s : State) (csr : BitVec 12) (w : Word), s.cfg.lplAccess = none →
    s.softwareReadLpl csr = none ∧ s.softwareWriteLpl csr w = none) ∧
  (∀ (s : State) (a : LplAccess), s.cfg.lplAccess = some a →
    a.llPos + 9 ≤ s.cfg.xlen.bits → a.mlPos + 8 ≤ s.cfg.xlen.bits → a.ulPos + 8 ≤ s.cfg.xlen.bits →
    (a.llPos + 9 ≤ a.mlPos ∨ a.mlPos + 8 ≤ a.llPos) → (a.llPos + 9 ≤ a.ulPos ∨ a.ulPos + 8 ≤ a.llPos) →
    (a.mlPos + 8 ≤ a.ulPos ∨ a.ulPos + 8 ≤ a.mlPos) →
    a.csr.toNat / 256 % 4 ≤ privilegeOf s.priv s.virt →
    (∃ v, s.softwareReadLpl a.csr = some v ∧ Config.inWidth s.cfg v ∧ v.extractLsb' a.llPos 9 = s.lpl.ll ∧
      v.extractLsb' a.mlPos 8 = s.lpl.ml ∧ v.extractLsb' a.ulPos 8 = s.lpl.ul) ∧
    (a.csr.toNat / 1024 = 3 → ∀ w, s.softwareWriteLpl a.csr w = none) ∧
    (a.csr.toNat / 1024 ≠ 3 →
      (∀ w, ∃ t, s.softwareWriteLpl a.csr w = some t ∧
        t = s.setLpl ⟨w.extractLsb' a.llPos 9, w.extractLsb' a.mlPos 8, w.extractLsb' a.ulPos 8⟩) ∧
      (∀ (u : State) (v : Word), u.cfg = s.cfg → u.softwareReadLpl a.csr = some v →
        s.softwareWriteLpl a.csr v = some (s.setLpl u.lpl))))
end

