-- ==== Sys2Proof/Laws/State.lean ====
section
/-! SUPPORT. One lemma per field per update of State: what each small update leaves and writes. -/

namespace Sys2Proof.Machine

open Sys2Proof

/-! `setPc` -/

@[simp] theorem State.setPc_cfg (s : State) (t : Word) : (s.setPc t).cfg = s.cfg := rfl
@[simp] theorem State.setPc_regs (s : State) (t : Word) : (s.setPc t).regs = s.regs := rfl
@[simp] theorem State.setPc_pc (s : State) (t : Word) : (s.setPc t).pc = t := rfl
@[simp] theorem State.setPc_priv (s : State) (t : Word) : (s.setPc t).priv = s.priv := rfl
@[simp] theorem State.setPc_virt (s : State) (t : Word) : (s.setPc t).virt = s.virt := rfl
@[simp] theorem State.setPc_elp (s : State) (t : Word) : (s.setPc t).elp = s.elp := rfl
@[simp] theorem State.setPc_lpl (s : State) (t : Word) : (s.setPc t).lpl = s.lpl := rfl
@[simp] theorem State.setPc_mseccfg (s : State) (t : Word) : (s.setPc t).mseccfg = s.mseccfg := rfl
@[simp] theorem State.setPc_menvcfg (s : State) (t : Word) : (s.setPc t).menvcfg = s.menvcfg := rfl
@[simp] theorem State.setPc_henvcfg (s : State) (t : Word) : (s.setPc t).henvcfg = s.henvcfg := rfl
@[simp] theorem State.setPc_mstatus (s : State) (t : Word) : (s.setPc t).mstatus = s.mstatus := rfl
@[simp] theorem State.setPc_vsstatus (s : State) (t : Word) : (s.setPc t).vsstatus = s.vsstatus := rfl
@[simp] theorem State.setPc_hstatus (s : State) (t : Word) : (s.setPc t).hstatus = s.hstatus := rfl
@[simp] theorem State.setPc_mtrap (s : State) (t : Word) : (s.setPc t).mtrap = s.mtrap := rfl
@[simp] theorem State.setPc_strap (s : State) (t : Word) : (s.setPc t).strap = s.strap := rfl
@[simp] theorem State.setPc_vstrap (s : State) (t : Word) : (s.setPc t).vstrap = s.vstrap := rfl
@[simp] theorem State.setPc_deleg (s : State) (t : Word) : (s.setPc t).deleg = s.deleg := rfl
@[simp] theorem State.setPc_mem (s : State) (t : Word) : (s.setPc t).mem = s.mem := rfl
@[simp] theorem State.setPc_inputs (s : State) (t : Word) : (s.setPc t).inputs = s.inputs := rfl
@[simp] theorem State.setPc_targets (s : State) (t : Word) : (s.setPc t).targets = s.targets := rfl
@[simp] theorem State.setPc_freeCount (s : State) (t : Word) : (s.setPc t).freeCount = s.freeCount := rfl

/-! `advance` -/

@[simp] theorem State.advance_cfg (s : State) (n : Nat) : (s.advance n).cfg = s.cfg := rfl
@[simp] theorem State.advance_regs (s : State) (n : Nat) : (s.advance n).regs = s.regs := rfl
@[simp] theorem State.advance_pc (s : State) (n : Nat) : (s.advance n).pc = pcPlus s.cfg.xlen s.pc n := rfl
@[simp] theorem State.advance_priv (s : State) (n : Nat) : (s.advance n).priv = s.priv := rfl
@[simp] theorem State.advance_virt (s : State) (n : Nat) : (s.advance n).virt = s.virt := rfl
@[simp] theorem State.advance_elp (s : State) (n : Nat) : (s.advance n).elp = s.elp := rfl
@[simp] theorem State.advance_lpl (s : State) (n : Nat) : (s.advance n).lpl = s.lpl := rfl
@[simp] theorem State.advance_mseccfg (s : State) (n : Nat) : (s.advance n).mseccfg = s.mseccfg := rfl
@[simp] theorem State.advance_menvcfg (s : State) (n : Nat) : (s.advance n).menvcfg = s.menvcfg := rfl
@[simp] theorem State.advance_henvcfg (s : State) (n : Nat) : (s.advance n).henvcfg = s.henvcfg := rfl
@[simp] theorem State.advance_mstatus (s : State) (n : Nat) : (s.advance n).mstatus = s.mstatus := rfl
@[simp] theorem State.advance_vsstatus (s : State) (n : Nat) : (s.advance n).vsstatus = s.vsstatus := rfl
@[simp] theorem State.advance_hstatus (s : State) (n : Nat) : (s.advance n).hstatus = s.hstatus := rfl
@[simp] theorem State.advance_mtrap (s : State) (n : Nat) : (s.advance n).mtrap = s.mtrap := rfl
@[simp] theorem State.advance_strap (s : State) (n : Nat) : (s.advance n).strap = s.strap := rfl
@[simp] theorem State.advance_vstrap (s : State) (n : Nat) : (s.advance n).vstrap = s.vstrap := rfl
@[simp] theorem State.advance_deleg (s : State) (n : Nat) : (s.advance n).deleg = s.deleg := rfl
@[simp] theorem State.advance_mem (s : State) (n : Nat) : (s.advance n).mem = s.mem := rfl
@[simp] theorem State.advance_inputs (s : State) (n : Nat) : (s.advance n).inputs = s.inputs := rfl
@[simp] theorem State.advance_targets (s : State) (n : Nat) : (s.advance n).targets = s.targets := rfl
@[simp] theorem State.advance_freeCount (s : State) (n : Nat) : (s.advance n).freeCount = s.freeCount := rfl

/-! `setElp` -/

@[simp] theorem State.setElp_cfg (s : State) (e : Elp) : (s.setElp e).cfg = s.cfg := rfl
@[simp] theorem State.setElp_regs (s : State) (e : Elp) : (s.setElp e).regs = s.regs := rfl
@[simp] theorem State.setElp_pc (s : State) (e : Elp) : (s.setElp e).pc = s.pc := rfl
@[simp] theorem State.setElp_priv (s : State) (e : Elp) : (s.setElp e).priv = s.priv := rfl
@[simp] theorem State.setElp_virt (s : State) (e : Elp) : (s.setElp e).virt = s.virt := rfl
@[simp] theorem State.setElp_elp (s : State) (e : Elp) : (s.setElp e).elp = e := rfl
@[simp] theorem State.setElp_lpl (s : State) (e : Elp) : (s.setElp e).lpl = s.lpl := rfl
@[simp] theorem State.setElp_mseccfg (s : State) (e : Elp) : (s.setElp e).mseccfg = s.mseccfg := rfl
@[simp] theorem State.setElp_menvcfg (s : State) (e : Elp) : (s.setElp e).menvcfg = s.menvcfg := rfl
@[simp] theorem State.setElp_henvcfg (s : State) (e : Elp) : (s.setElp e).henvcfg = s.henvcfg := rfl
@[simp] theorem State.setElp_mstatus (s : State) (e : Elp) : (s.setElp e).mstatus = s.mstatus := rfl
@[simp] theorem State.setElp_vsstatus (s : State) (e : Elp) : (s.setElp e).vsstatus = s.vsstatus := rfl
@[simp] theorem State.setElp_hstatus (s : State) (e : Elp) : (s.setElp e).hstatus = s.hstatus := rfl
@[simp] theorem State.setElp_mtrap (s : State) (e : Elp) : (s.setElp e).mtrap = s.mtrap := rfl
@[simp] theorem State.setElp_strap (s : State) (e : Elp) : (s.setElp e).strap = s.strap := rfl
@[simp] theorem State.setElp_vstrap (s : State) (e : Elp) : (s.setElp e).vstrap = s.vstrap := rfl
@[simp] theorem State.setElp_deleg (s : State) (e : Elp) : (s.setElp e).deleg = s.deleg := rfl
@[simp] theorem State.setElp_mem (s : State) (e : Elp) : (s.setElp e).mem = s.mem := rfl
@[simp] theorem State.setElp_inputs (s : State) (e : Elp) : (s.setElp e).inputs = s.inputs := rfl
@[simp] theorem State.setElp_targets (s : State) (e : Elp) : (s.setElp e).targets = s.targets := rfl
@[simp] theorem State.setElp_freeCount (s : State) (e : Elp) : (s.setElp e).freeCount = s.freeCount := rfl

/-! `setLpl` -/

@[simp] theorem State.setLpl_cfg (s : State) (l : Lpl) : (s.setLpl l).cfg = s.cfg := rfl
@[simp] theorem State.setLpl_regs (s : State) (l : Lpl) : (s.setLpl l).regs = s.regs := rfl
@[simp] theorem State.setLpl_pc (s : State) (l : Lpl) : (s.setLpl l).pc = s.pc := rfl
@[simp] theorem State.setLpl_priv (s : State) (l : Lpl) : (s.setLpl l).priv = s.priv := rfl
@[simp] theorem State.setLpl_virt (s : State) (l : Lpl) : (s.setLpl l).virt = s.virt := rfl
@[simp] theorem State.setLpl_elp (s : State) (l : Lpl) : (s.setLpl l).elp = s.elp := rfl
@[simp] theorem State.setLpl_lpl (s : State) (l : Lpl) : (s.setLpl l).lpl = l := rfl
@[simp] theorem State.setLpl_mseccfg (s : State) (l : Lpl) : (s.setLpl l).mseccfg = s.mseccfg := rfl
@[simp] theorem State.setLpl_menvcfg (s : State) (l : Lpl) : (s.setLpl l).menvcfg = s.menvcfg := rfl
@[simp] theorem State.setLpl_henvcfg (s : State) (l : Lpl) : (s.setLpl l).henvcfg = s.henvcfg := rfl
@[simp] theorem State.setLpl_mstatus (s : State) (l : Lpl) : (s.setLpl l).mstatus = s.mstatus := rfl
@[simp] theorem State.setLpl_vsstatus (s : State) (l : Lpl) : (s.setLpl l).vsstatus = s.vsstatus := rfl
@[simp] theorem State.setLpl_hstatus (s : State) (l : Lpl) : (s.setLpl l).hstatus = s.hstatus := rfl
@[simp] theorem State.setLpl_mtrap (s : State) (l : Lpl) : (s.setLpl l).mtrap = s.mtrap := rfl
@[simp] theorem State.setLpl_strap (s : State) (l : Lpl) : (s.setLpl l).strap = s.strap := rfl
@[simp] theorem State.setLpl_vstrap (s : State) (l : Lpl) : (s.setLpl l).vstrap = s.vstrap := rfl
@[simp] theorem State.setLpl_deleg (s : State) (l : Lpl) : (s.setLpl l).deleg = s.deleg := rfl
@[simp] theorem State.setLpl_mem (s : State) (l : Lpl) : (s.setLpl l).mem = s.mem := rfl
@[simp] theorem State.setLpl_inputs (s : State) (l : Lpl) : (s.setLpl l).inputs = s.inputs := rfl
@[simp] theorem State.setLpl_targets (s : State) (l : Lpl) : (s.setLpl l).targets = s.targets := rfl
@[simp] theorem State.setLpl_freeCount (s : State) (l : Lpl) : (s.setLpl l).freeCount = s.freeCount := rfl

/-! `popInput` -/

@[simp] theorem State.popInput_cfg (s : State)  : (s.popInput).cfg = s.cfg := rfl
@[simp] theorem State.popInput_regs (s : State)  : (s.popInput).regs = s.regs := rfl
@[simp] theorem State.popInput_pc (s : State)  : (s.popInput).pc = s.pc := rfl
@[simp] theorem State.popInput_priv (s : State)  : (s.popInput).priv = s.priv := rfl
@[simp] theorem State.popInput_virt (s : State)  : (s.popInput).virt = s.virt := rfl
@[simp] theorem State.popInput_elp (s : State)  : (s.popInput).elp = s.elp := rfl
@[simp] theorem State.popInput_lpl (s : State)  : (s.popInput).lpl = s.lpl := rfl
@[simp] theorem State.popInput_mseccfg (s : State)  : (s.popInput).mseccfg = s.mseccfg := rfl
@[simp] theorem State.popInput_menvcfg (s : State)  : (s.popInput).menvcfg = s.menvcfg := rfl
@[simp] theorem State.popInput_henvcfg (s : State)  : (s.popInput).henvcfg = s.henvcfg := rfl
@[simp] theorem State.popInput_mstatus (s : State)  : (s.popInput).mstatus = s.mstatus := rfl
@[simp] theorem State.popInput_vsstatus (s : State)  : (s.popInput).vsstatus = s.vsstatus := rfl
@[simp] theorem State.popInput_hstatus (s : State)  : (s.popInput).hstatus = s.hstatus := rfl
@[simp] theorem State.popInput_mtrap (s : State)  : (s.popInput).mtrap = s.mtrap := rfl
@[simp] theorem State.popInput_strap (s : State)  : (s.popInput).strap = s.strap := rfl
@[simp] theorem State.popInput_vstrap (s : State)  : (s.popInput).vstrap = s.vstrap := rfl
@[simp] theorem State.popInput_deleg (s : State)  : (s.popInput).deleg = s.deleg := rfl
@[simp] theorem State.popInput_mem (s : State)  : (s.popInput).mem = s.mem := rfl
@[simp] theorem State.popInput_inputs (s : State)  : (s.popInput).inputs = s.inputs.tail := rfl
@[simp] theorem State.popInput_targets (s : State)  : (s.popInput).targets = s.targets := rfl
@[simp] theorem State.popInput_freeCount (s : State)  : (s.popInput).freeCount = s.freeCount := rfl

/-! `setReg` -/

@[simp] theorem State.setReg_cfg (s : State) (r : RegNum) (v : Word) : (s.setReg r v).cfg = s.cfg := by
  unfold State.setReg; split <;> rfl
@[simp] theorem State.setReg_pc (s : State) (r : RegNum) (v : Word) : (s.setReg r v).pc = s.pc := by
  unfold State.setReg; split <;> rfl
@[simp] theorem State.setReg_priv (s : State) (r : RegNum) (v : Word) : (s.setReg r v).priv = s.priv := by
  unfold State.setReg; split <;> rfl
@[simp] theorem State.setReg_virt (s : State) (r : RegNum) (v : Word) : (s.setReg r v).virt = s.virt := by
  unfold State.setReg; split <;> rfl
@[simp] theorem State.setReg_elp (s : State) (r : RegNum) (v : Word) : (s.setReg r v).elp = s.elp := by
  unfold State.setReg; split <;> rfl
@[simp] theorem State.setReg_lpl (s : State) (r : RegNum) (v : Word) : (s.setReg r v).lpl = s.lpl := by
  unfold State.setReg; split <;> rfl
@[simp] theorem State.setReg_mseccfg (s : State) (r : RegNum) (v : Word) : (s.setReg r v).mseccfg = s.mseccfg := by
  unfold State.setReg; split <;> rfl
@[simp] theorem State.setReg_menvcfg (s : State) (r : RegNum) (v : Word) : (s.setReg r v).menvcfg = s.menvcfg := by
  unfold State.setReg; split <;> rfl
@[simp] theorem State.setReg_henvcfg (s : State) (r : RegNum) (v : Word) : (s.setReg r v).henvcfg = s.henvcfg := by
  unfold State.setReg; split <;> rfl
@[simp] theorem State.setReg_mstatus (s : State) (r : RegNum) (v : Word) : (s.setReg r v).mstatus = s.mstatus := by
  unfold State.setReg; split <;> rfl
@[simp] theorem State.setReg_vsstatus (s : State) (r : RegNum) (v : Word) : (s.setReg r v).vsstatus = s.vsstatus := by
  unfold State.setReg; split <;> rfl
@[simp] theorem State.setReg_hstatus (s : State) (r : RegNum) (v : Word) : (s.setReg r v).hstatus = s.hstatus := by
  unfold State.setReg; split <;> rfl
@[simp] theorem State.setReg_mtrap (s : State) (r : RegNum) (v : Word) : (s.setReg r v).mtrap = s.mtrap := by
  unfold State.setReg; split <;> rfl
@[simp] theorem State.setReg_strap (s : State) (r : RegNum) (v : Word) : (s.setReg r v).strap = s.strap := by
  unfold State.setReg; split <;> rfl
@[simp] theorem State.setReg_vstrap (s : State) (r : RegNum) (v : Word) : (s.setReg r v).vstrap = s.vstrap := by
  unfold State.setReg; split <;> rfl
@[simp] theorem State.setReg_deleg (s : State) (r : RegNum) (v : Word) : (s.setReg r v).deleg = s.deleg := by
  unfold State.setReg; split <;> rfl
@[simp] theorem State.setReg_mem (s : State) (r : RegNum) (v : Word) : (s.setReg r v).mem = s.mem := by
  unfold State.setReg; split <;> rfl
@[simp] theorem State.setReg_inputs (s : State) (r : RegNum) (v : Word) : (s.setReg r v).inputs = s.inputs := by
  unfold State.setReg; split <;> rfl
@[simp] theorem State.setReg_targets (s : State) (r : RegNum) (v : Word) : (s.setReg r v).targets = s.targets := by
  unfold State.setReg; split <;> rfl
@[simp] theorem State.setReg_freeCount (s : State) (r : RegNum) (v : Word) : (s.setReg r v).freeCount = s.freeCount := by
  unfold State.setReg; split <;> rfl

/-! `expectPad` -/

@[simp] theorem State.expectPad_cfg (s : State) (i : Instr) : (s.expectPad i).cfg = s.cfg := by
  unfold State.expectPad; split <;> rfl
@[simp] theorem State.expectPad_regs (s : State) (i : Instr) : (s.expectPad i).regs = s.regs := by
  unfold State.expectPad; split <;> rfl
@[simp] theorem State.expectPad_pc (s : State) (i : Instr) : (s.expectPad i).pc = s.pc := by
  unfold State.expectPad; split <;> rfl
@[simp] theorem State.expectPad_priv (s : State) (i : Instr) : (s.expectPad i).priv = s.priv := by
  unfold State.expectPad; split <;> rfl
@[simp] theorem State.expectPad_virt (s : State) (i : Instr) : (s.expectPad i).virt = s.virt := by
  unfold State.expectPad; split <;> rfl
@[simp] theorem State.expectPad_lpl (s : State) (i : Instr) : (s.expectPad i).lpl = s.lpl := by
  unfold State.expectPad; split <;> rfl
@[simp] theorem State.expectPad_mseccfg (s : State) (i : Instr) : (s.expectPad i).mseccfg = s.mseccfg := by
  unfold State.expectPad; split <;> rfl
@[simp] theorem State.expectPad_menvcfg (s : State) (i : Instr) : (s.expectPad i).menvcfg = s.menvcfg := by
  unfold State.expectPad; split <;> rfl
@[simp] theorem State.expectPad_henvcfg (s : State) (i : Instr) : (s.expectPad i).henvcfg = s.henvcfg := by
  unfold State.expectPad; split <;> rfl
@[simp] theorem State.expectPad_mstatus (s : State) (i : Instr) : (s.expectPad i).mstatus = s.mstatus := by
  unfold State.expectPad; split <;> rfl
@[simp] theorem State.expectPad_vsstatus (s : State) (i : Instr) : (s.expectPad i).vsstatus = s.vsstatus := by
  unfold State.expectPad; split <;> rfl
@[simp] theorem State.expectPad_hstatus (s : State) (i : Instr) : (s.expectPad i).hstatus = s.hstatus := by
  unfold State.expectPad; split <;> rfl
@[simp] theorem State.expectPad_mtrap (s : State) (i : Instr) : (s.expectPad i).mtrap = s.mtrap := by
  unfold State.expectPad; split <;> rfl
@[simp] theorem State.expectPad_strap (s : State) (i : Instr) : (s.expectPad i).strap = s.strap := by
  unfold State.expectPad; split <;> rfl
@[simp] theorem State.expectPad_vstrap (s : State) (i : Instr) : (s.expectPad i).vstrap = s.vstrap := by
  unfold State.expectPad; split <;> rfl
@[simp] theorem State.expectPad_deleg (s : State) (i : Instr) : (s.expectPad i).deleg = s.deleg := by
  unfold State.expectPad; split <;> rfl
@[simp] theorem State.expectPad_mem (s : State) (i : Instr) : (s.expectPad i).mem = s.mem := by
  unfold State.expectPad; split <;> rfl
@[simp] theorem State.expectPad_inputs (s : State) (i : Instr) : (s.expectPad i).inputs = s.inputs := by
  unfold State.expectPad; split <;> rfl
@[simp] theorem State.expectPad_targets (s : State) (i : Instr) : (s.expectPad i).targets = s.targets := by
  unfold State.expectPad; split <;> rfl
@[simp] theorem State.expectPad_freeCount (s : State) (i : Instr) : (s.expectPad i).freeCount = s.freeCount := by
  unfold State.expectPad; split <;> rfl

theorem State.expectPad_elp (s : State) (i : Instr) :
    (s.expectPad i).elp = if s.xfcfie && isLpExpected i then .lpExpected else s.elp := by
  unfold State.expectPad; split <;> rfl

/-! `enterM` -/

@[simp] theorem State.enterM_cfg (s : State) (c : Cause) : (s.enterM c).cfg = s.cfg := rfl
@[simp] theorem State.enterM_regs (s : State) (c : Cause) : (s.enterM c).regs = s.regs := rfl
@[simp] theorem State.enterM_pc (s : State) (c : Cause) : (s.enterM c).pc = s.mtrap.tvec.entry s.cfg.xlen c := rfl
@[simp] theorem State.enterM_priv (s : State) (c : Cause) : (s.enterM c).priv = .m := rfl
@[simp] theorem State.enterM_virt (s : State) (c : Cause) : (s.enterM c).virt = false := rfl
@[simp] theorem State.enterM_elp (s : State) (c : Cause) : (s.enterM c).elp = .noLpExpected := rfl
@[simp] theorem State.enterM_lpl (s : State) (c : Cause) : (s.enterM c).lpl = s.lpl := rfl
@[simp] theorem State.enterM_mseccfg (s : State) (c : Cause) : (s.enterM c).mseccfg = s.mseccfg := rfl
@[simp] theorem State.enterM_menvcfg (s : State) (c : Cause) : (s.enterM c).menvcfg = s.menvcfg := rfl
@[simp] theorem State.enterM_henvcfg (s : State) (c : Cause) : (s.enterM c).henvcfg = s.henvcfg := rfl
@[simp] theorem State.enterM_vsstatus (s : State) (c : Cause) : (s.enterM c).vsstatus = s.vsstatus := rfl
@[simp] theorem State.enterM_hstatus (s : State) (c : Cause) : (s.enterM c).hstatus = s.hstatus := rfl
@[simp] theorem State.enterM_mtrap (s : State) (c : Cause) : (s.enterM c).mtrap = s.mtrap.record s c := rfl
@[simp] theorem State.enterM_strap (s : State) (c : Cause) : (s.enterM c).strap = s.strap := rfl
@[simp] theorem State.enterM_vstrap (s : State) (c : Cause) : (s.enterM c).vstrap = s.vstrap := rfl
@[simp] theorem State.enterM_deleg (s : State) (c : Cause) : (s.enterM c).deleg = s.deleg := rfl
@[simp] theorem State.enterM_mem (s : State) (c : Cause) : (s.enterM c).mem = s.mem := rfl
@[simp] theorem State.enterM_inputs (s : State) (c : Cause) : (s.enterM c).inputs = s.inputs := rfl
@[simp] theorem State.enterM_targets (s : State) (c : Cause) : (s.enterM c).targets = s.targets.tail := rfl
@[simp] theorem State.enterM_freeCount (s : State) (c : Cause) : (s.enterM c).freeCount = s.freeCount + 1 := rfl

/-! `enterS` -/

@[simp] theorem State.enterS_cfg (s : State) (c : Cause) : (s.enterS c).cfg = s.cfg := rfl
@[simp] theorem State.enterS_regs (s : State) (c : Cause) : (s.enterS c).regs = s.regs := rfl
@[simp] theorem State.enterS_pc (s : State) (c : Cause) : (s.enterS c).pc = s.strap.tvec.entry s.cfg.xlen c := rfl
@[simp] theorem State.enterS_priv (s : State) (c : Cause) : (s.enterS c).priv = .s := rfl
@[simp] theorem State.enterS_virt (s : State) (c : Cause) : (s.enterS c).virt = false := rfl
@[simp] theorem State.enterS_elp (s : State) (c : Cause) : (s.enterS c).elp = .noLpExpected := rfl
@[simp] theorem State.enterS_lpl (s : State) (c : Cause) : (s.enterS c).lpl = s.lpl := rfl
@[simp] theorem State.enterS_mseccfg (s : State) (c : Cause) : (s.enterS c).mseccfg = s.mseccfg := rfl
@[simp] theorem State.enterS_menvcfg (s : State) (c : Cause) : (s.enterS c).menvcfg = s.menvcfg := rfl
@[simp] theorem State.enterS_henvcfg (s : State) (c : Cause) : (s.enterS c).henvcfg = s.henvcfg := rfl
@[simp] theorem State.enterS_vsstatus (s : State) (c : Cause) : (s.enterS c).vsstatus = s.vsstatus := rfl
@[simp] theorem State.enterS_mtrap (s : State) (c : Cause) : (s.enterS c).mtrap = s.mtrap := rfl
@[simp] theorem State.enterS_strap (s : State) (c : Cause) : (s.enterS c).strap = s.strap.record s c := rfl
@[simp] theorem State.enterS_vstrap (s : State) (c : Cause) : (s.enterS c).vstrap = s.vstrap := rfl
@[simp] theorem State.enterS_deleg (s : State) (c : Cause) : (s.enterS c).deleg = s.deleg := rfl
@[simp] theorem State.enterS_mem (s : State) (c : Cause) : (s.enterS c).mem = s.mem := rfl
@[simp] theorem State.enterS_inputs (s : State) (c : Cause) : (s.enterS c).inputs = s.inputs := rfl
@[simp] theorem State.enterS_targets (s : State) (c : Cause) : (s.enterS c).targets = s.targets.tail := rfl
@[simp] theorem State.enterS_freeCount (s : State) (c : Cause) : (s.enterS c).freeCount = s.freeCount + 1 := rfl

/-! `enterVS` -/

@[simp] theorem State.enterVS_cfg (s : State) (c : Cause) : (s.enterVS c).cfg = s.cfg := rfl
@[simp] theorem State.enterVS_regs (s : State) (c : Cause) : (s.enterVS c).regs = s.regs := rfl
@[simp] theorem State.enterVS_pc (s : State) (c : Cause) : (s.enterVS c).pc = s.vstrap.tvec.entry s.cfg.xlen c := rfl
@[simp] theorem State.enterVS_priv (s : State) (c : Cause) : (s.enterVS c).priv = .s := rfl
@[simp] theorem State.enterVS_virt (s : State) (c : Cause) : (s.enterVS c).virt = true := rfl
@[simp] theorem State.enterVS_elp (s : State) (c : Cause) : (s.enterVS c).elp = .noLpExpected := rfl
@[simp] theorem State.enterVS_lpl (s : State) (c : Cause) : (s.enterVS c).lpl = s.lpl := rfl
@[simp] theorem State.enterVS_mseccfg (s : State) (c : Cause) : (s.enterVS c).mseccfg = s.mseccfg := rfl
@[simp] theorem State.enterVS_menvcfg (s : State) (c : Cause) : (s.enterVS c).menvcfg = s.menvcfg := rfl
@[simp] theorem State.enterVS_henvcfg (s : State) (c : Cause) : (s.enterVS c).henvcfg = s.henvcfg := rfl
@[simp] theorem State.enterVS_mstatus (s : State) (c : Cause) : (s.enterVS c).mstatus = s.mstatus := rfl
@[simp] theorem State.enterVS_hstatus (s : State) (c : Cause) : (s.enterVS c).hstatus = s.hstatus := rfl
@[simp] theorem State.enterVS_mtrap (s : State) (c : Cause) : (s.enterVS c).mtrap = s.mtrap := rfl
@[simp] theorem State.enterVS_strap (s : State) (c : Cause) : (s.enterVS c).strap = s.strap := rfl
@[simp] theorem State.enterVS_vstrap (s : State) (c : Cause) : (s.enterVS c).vstrap = s.vstrap.record s c := rfl
@[simp] theorem State.enterVS_deleg (s : State) (c : Cause) : (s.enterVS c).deleg = s.deleg := rfl
@[simp] theorem State.enterVS_mem (s : State) (c : Cause) : (s.enterVS c).mem = s.mem := rfl
@[simp] theorem State.enterVS_inputs (s : State) (c : Cause) : (s.enterVS c).inputs = s.inputs := rfl
@[simp] theorem State.enterVS_targets (s : State) (c : Cause) : (s.enterVS c).targets = s.targets.tail := rfl
@[simp] theorem State.enterVS_freeCount (s : State) (c : Cause) : (s.enterVS c).freeCount = s.freeCount + 1 := rfl

/-! `returnM` -/

@[simp] theorem State.returnM_cfg (s : State)  : (s.returnM).cfg = s.cfg := rfl
@[simp] theorem State.returnM_regs (s : State)  : (s.returnM).regs = s.regs := rfl
@[simp] theorem State.returnM_pc (s : State)  : (s.returnM).pc = s.mtrap.epc := rfl
@[simp] theorem State.returnM_priv (s : State)  : (s.returnM).priv = s.mstatus.mpp := rfl
@[simp] theorem State.returnM_elp (s : State)  : (s.returnM).elp = s.mstatus.mpelp := rfl
@[simp] theorem State.returnM_lpl (s : State)  : (s.returnM).lpl = s.lpl := rfl
@[simp] theorem State.returnM_mseccfg (s : State)  : (s.returnM).mseccfg = s.mseccfg := rfl
@[simp] theorem State.returnM_menvcfg (s : State)  : (s.returnM).menvcfg = s.menvcfg := rfl
@[simp] theorem State.returnM_henvcfg (s : State)  : (s.returnM).henvcfg = s.henvcfg := rfl
@[simp] theorem State.returnM_vsstatus (s : State)  : (s.returnM).vsstatus = s.vsstatus := rfl
@[simp] theorem State.returnM_hstatus (s : State)  : (s.returnM).hstatus = s.hstatus := rfl
@[simp] theorem State.returnM_mtrap (s : State)  : (s.returnM).mtrap = s.mtrap := rfl
@[simp] theorem State.returnM_strap (s : State)  : (s.returnM).strap = s.strap := rfl
@[simp] theorem State.returnM_vstrap (s : State)  : (s.returnM).vstrap = s.vstrap := rfl
@[simp] theorem State.returnM_deleg (s : State)  : (s.returnM).deleg = s.deleg := rfl
@[simp] theorem State.returnM_mem (s : State)  : (s.returnM).mem = s.mem := rfl
@[simp] theorem State.returnM_inputs (s : State)  : (s.returnM).inputs = s.inputs := rfl
@[simp] theorem State.returnM_targets (s : State)  : (s.returnM).targets = s.targets := rfl
@[simp] theorem State.returnM_freeCount (s : State)  : (s.returnM).freeCount = s.freeCount := rfl

/-! `returnS` -/

@[simp] theorem State.returnS_cfg (s : State)  : (s.returnS).cfg = s.cfg := rfl
@[simp] theorem State.returnS_regs (s : State)  : (s.returnS).regs = s.regs := rfl
@[simp] theorem State.returnS_pc (s : State)  : (s.returnS).pc = s.strap.epc := rfl
@[simp] theorem State.returnS_priv (s : State)  : (s.returnS).priv = s.mstatus.spp.toPriv := rfl
@[simp] theorem State.returnS_virt (s : State)  : (s.returnS).virt = (s.cfg.hasH && s.hstatus.spv) := rfl
@[simp] theorem State.returnS_elp (s : State)  : (s.returnS).elp = s.mstatus.spelp := rfl
@[simp] theorem State.returnS_lpl (s : State)  : (s.returnS).lpl = s.lpl := rfl
@[simp] theorem State.returnS_mseccfg (s : State)  : (s.returnS).mseccfg = s.mseccfg := rfl
@[simp] theorem State.returnS_menvcfg (s : State)  : (s.returnS).menvcfg = s.menvcfg := rfl
@[simp] theorem State.returnS_henvcfg (s : State)  : (s.returnS).henvcfg = s.henvcfg := rfl
@[simp] theorem State.returnS_vsstatus (s : State)  : (s.returnS).vsstatus = s.vsstatus := rfl
@[simp] theorem State.returnS_mtrap (s : State)  : (s.returnS).mtrap = s.mtrap := rfl
@[simp] theorem State.returnS_strap (s : State)  : (s.returnS).strap = s.strap := rfl
@[simp] theorem State.returnS_vstrap (s : State)  : (s.returnS).vstrap = s.vstrap := rfl
@[simp] theorem State.returnS_deleg (s : State)  : (s.returnS).deleg = s.deleg := rfl
@[simp] theorem State.returnS_mem (s : State)  : (s.returnS).mem = s.mem := rfl
@[simp] theorem State.returnS_inputs (s : State)  : (s.returnS).inputs = s.inputs := rfl
@[simp] theorem State.returnS_targets (s : State)  : (s.returnS).targets = s.targets := rfl
@[simp] theorem State.returnS_freeCount (s : State)  : (s.returnS).freeCount = s.freeCount := rfl

/-! `returnVS` -/

@[simp] theorem State.returnVS_cfg (s : State)  : (s.returnVS).cfg = s.cfg := rfl
@[simp] theorem State.returnVS_regs (s : State)  : (s.returnVS).regs = s.regs := rfl
@[simp] theorem State.returnVS_pc (s : State)  : (s.returnVS).pc = s.vstrap.epc := rfl
@[simp] theorem State.returnVS_priv (s : State)  : (s.returnVS).priv = s.vsstatus.spp.toPriv := rfl
@[simp] theorem State.returnVS_virt (s : State)  : (s.returnVS).virt = true := rfl
@[simp] theorem State.returnVS_elp (s : State)  : (s.returnVS).elp = s.vsstatus.spelp := rfl
@[simp] theorem State.returnVS_lpl (s : State)  : (s.returnVS).lpl = s.lpl := rfl
@[simp] theorem State.returnVS_mseccfg (s : State)  : (s.returnVS).mseccfg = s.mseccfg := rfl
@[simp] theorem State.returnVS_menvcfg (s : State)  : (s.returnVS).menvcfg = s.menvcfg := rfl
@[simp] theorem State.returnVS_henvcfg (s : State)  : (s.returnVS).henvcfg = s.henvcfg := rfl
@[simp] theorem State.returnVS_mstatus (s : State)  : (s.returnVS).mstatus = s.mstatus := rfl
@[simp] theorem State.returnVS_hstatus (s : State)  : (s.returnVS).hstatus = s.hstatus := rfl
@[simp] theorem State.returnVS_mtrap (s : State)  : (s.returnVS).mtrap = s.mtrap := rfl
@[simp] theorem State.returnVS_strap (s : State)  : (s.returnVS).strap = s.strap := rfl
@[simp] theorem State.returnVS_vstrap (s : State)  : (s.returnVS).vstrap = s.vstrap := rfl
@[simp] theorem State.returnVS_deleg (s : State)  : (s.returnVS).deleg = s.deleg := rfl
@[simp] theorem State.returnVS_mem (s : State)  : (s.returnVS).mem = s.mem := rfl
@[simp] theorem State.returnVS_inputs (s : State)  : (s.returnVS).inputs = s.inputs := rfl
@[simp] theorem State.returnVS_targets (s : State)  : (s.returnVS).targets = s.targets := rfl
@[simp] theorem State.returnVS_freeCount (s : State)  : (s.returnVS).freeCount = s.freeCount := rfl

/-! A register read sees only the registers. -/

@[simp] theorem State.setPc_reg (s : State) (t : Word) (r : RegNum) : (s.setPc t).reg r = s.reg r := rfl
@[simp] theorem State.advance_reg (s : State) (n : Nat) (r : RegNum) : (s.advance n).reg r = s.reg r := rfl
@[simp] theorem State.setElp_reg (s : State) (e : Elp) (r : RegNum) : (s.setElp e).reg r = s.reg r := rfl
@[simp] theorem State.setLpl_reg (s : State) (l : Lpl) (r : RegNum) : (s.setLpl l).reg r = s.reg r := rfl
@[simp] theorem State.popInput_reg (s : State) (r : RegNum) : (s.popInput).reg r = s.reg r := rfl
@[simp] theorem State.enterM_reg (s : State) (c : Cause) (r : RegNum) : (s.enterM c).reg r = s.reg r := rfl
@[simp] theorem State.enterS_reg (s : State) (c : Cause) (r : RegNum) : (s.enterS c).reg r = s.reg r := rfl
@[simp] theorem State.enterVS_reg (s : State) (c : Cause) (r : RegNum) : (s.enterVS c).reg r = s.reg r := rfl
@[simp] theorem State.returnM_reg (s : State) (r : RegNum) : (s.returnM).reg r = s.reg r := rfl
@[simp] theorem State.returnS_reg (s : State) (r : RegNum) : (s.returnS).reg r = s.reg r := rfl
@[simp] theorem State.returnVS_reg (s : State) (r : RegNum) : (s.returnVS).reg r = s.reg r := rfl
@[simp] theorem State.expectPad_reg (s : State) (i : Instr) (r : RegNum) : (s.expectPad i).reg r = s.reg r := by
  simp [State.reg]

end Sys2Proof.Machine
end

