-- ==== Sys2Proof/Laws/CsrFields.lean ====
section
/-! SUPPORT. What the software accesses to the CSR fields and to `lpl` do, said once. -/

namespace Sys2Proof.Machine

open Sys2Proof

@[simp] theorem Elp.toBit_ofBit (b : Bool) : (Elp.ofBit b).toBit = b := by cases b <;> rfl

@[simp] theorem Elp.ofBit_toBit (e : Elp) : Elp.ofBit e.toBit = e := by cases e <;> rfl

/-- A software write answers exactly where the field exists and the mode may access it, and then it is `setCsrField`. -/
theorem State.softwareWrite_eq_some {s t : State} {f : CsrField} {b : Bool} :
    s.softwareWrite f b = some t ↔
      Config.hasField s.cfg (s.homeOf f) = true ∧ s.mayAccess f = true ∧ s.setCsrField f b = t := by
  simp [State.softwareWrite, and_assoc]

/-- A software read answers exactly where the field exists and the mode may access it, and then it is `csrField`. -/
theorem State.softwareRead_eq_some {s : State} {f : CsrField} {b : Bool} :
    s.softwareRead f = some b ↔
      Config.hasField s.cfg (s.homeOf f) = true ∧ s.mayAccess f = true ∧ s.csrField f = b := by
  simp [State.softwareRead, and_assoc]

/-- A field that shares its home with the written one reads the written bit, every other one reads as before. -/
theorem State.csrField_setCsrField (s : State) (f g : CsrField) (b : Bool) :
    (s.setCsrField f b).csrField g = if s.homeOf g = s.homeOf f then b else s.csrField g := by
  cases hv : s.virt <;> cases f <;> cases g <;> simp [State.setCsrField, State.csrField, State.homeOf, hv]

/-! `lpl` under `LPL_ACCESS`. -/

/-- A field placed at a position reads back there. -/
theorem extract_placed {n : Nat} (v : BitVec n) (p : Nat) (h : p + n ≤ 64) :
    (v.setWidth 64 <<< p).extractLsb' p n = v := by
  apply BitVec.eq_of_getLsbD_eq
  intro i hi
  simp [hi, show p + i < 64 by omega]

/-- A field placed elsewhere leaves the bits of another one 0. -/
theorem extract_placed_apart {n m : Nat} (v : BitVec n) (p q : Nat) (h : fieldsApart p n q m = true) :
    (v.setWidth 64 <<< p).extractLsb' q m = 0#m := by
  apply BitVec.eq_of_getLsbD_eq
  intro i hi
  simp only [fieldsApart, decide_eq_true_eq] at h
  simp only [BitVec.getLsbD_extractLsb', BitVec.getLsbD_shiftLeft, BitVec.getLsbD_setWidth, BitVec.getLsbD_zero]
  rcases h with h | h
  · rw [BitVec.getLsbD_of_ge v (q + i - p) (by omega)]; simp
  · simp [show q + i < p by omega]

/-- What `lpl` reads as gives `lpl` back when it is written. -/
@[simp] theorem LplAccess.fields_image (x : Xlen) (a : LplAccess) (l : Lpl) (h : LplAccess.usable x a = true) :
    LplAccess.fields a (LplAccess.image a l) = l := by
  have hx : x.bits ≤ 64 := by cases x <;> decide
  simp only [LplAccess.usable, Bool.and_eq_true, decide_eq_true_eq] at h
  obtain ⟨⟨⟨⟨⟨h1, h2⟩, h3⟩, h4⟩, h5⟩, h6⟩ := h
  have sym : ∀ {p n q m}, fieldsApart p n q m = true → fieldsApart q m p n = true := by
    intro p n q m h; simp only [fieldsApart, decide_eq_true_eq] at *; omega
  simp only [LplAccess.fields, LplAccess.image, BitVec.extractLsb'_or]
  rw [extract_placed _ _ (by omega), extract_placed _ _ (by omega), extract_placed _ _ (by omega),
    extract_placed_apart _ _ _ (sym h4), extract_placed_apart _ _ _ (sym h5), extract_placed_apart _ _ _ h4,
    extract_placed_apart _ _ _ (sym h6), extract_placed_apart _ _ _ h5, extract_placed_apart _ _ _ h6]
  simp

end Sys2Proof.Machine
end

