-- ==== Sys2Proof/Laws/Decode.lean ====
section
/-! SUPPORT. The algebra of fields and rows: a placed field is read back, does not disturb other fields or fixed bits, and
a word of one row is in no conflicting row. -/

namespace Sys2Proof

theorem place_getLsbD {n : Nat} (v : BitVec n) (pos i : Nat) (hi : i < 32) :
    (place v pos).getLsbD i = (decide (pos ≤ i) && v.getLsbD (i - pos)) := by
  have h2 : i - pos < 32 := by omega
  simp only [place, BitVec.getLsbD_shiftLeft, hi, BitVec.getLsbD_setWidth, h2, decide_true, Bool.true_and]
  by_cases h : i < pos <;> (simp [h]; try omega)

theorem extract_place {n : Nat} (v : BitVec n) (pos : Nat) (h : pos + n ≤ 32) : (place v pos).extractLsb' pos n = v := by
  apply BitVec.eq_of_getLsbD_eq
  intro i hi
  rw [BitVec.getLsbD_extractLsb', place_getLsbD _ _ _ (by omega)]
  simp [hi]

theorem extract_place_disjoint {n : Nat} (v : BitVec n) (pos q m : Nat) (hq : q + m ≤ 32)
    (h : q + m ≤ pos ∨ pos + n ≤ q) : (place v pos).extractLsb' q m = 0 := by
  apply BitVec.eq_of_getLsbD_eq
  intro i hi
  rw [BitVec.getLsbD_extractLsb', place_getLsbD _ _ _ (by omega)]
  rcases h with h | h
  · simp [show ¬ pos ≤ q + i by omega]
  · simp [BitVec.getLsbD_of_ge v (q + i - pos) (by omega)]

/-- A field outside the mask does not change which row a word is in. -/
theorem place_and_mask {n : Nat} (v : BitVec n) (pos : Nat) (mask : BitVec 32)
    (h : place (BitVec.allOnes n) pos &&& mask = 0) : place v pos &&& mask = 0 := by
  apply BitVec.eq_of_getLsbD_eq
  intro i hi
  have hb := congrArg (·.getLsbD i) h
  simp only [BitVec.getLsbD_and, place_getLsbD _ _ _ hi, BitVec.getLsbD_allOnes] at hb ⊢
  by_cases hn : i - pos < n
  · cases hv : v.getLsbD (i - pos) <;> simp_all
  · simp [BitVec.getLsbD_of_ge v (i - pos) (by omega)]

theorem inRow_or_place {n : Nat} (w : BitVec 32) (v : BitVec n) (pos : Nat) (mask mat : BitVec 32)
    (h : place (BitVec.allOnes n) pos &&& mask = 0) : inRow (w ||| place v pos) mask mat = inRow w mask mat := by
  have : (w ||| place v pos) &&& mask = w &&& mask := by
    have h' := place_and_mask v pos mask h
    apply BitVec.eq_of_getLsbD_eq
    intro i hi
    have hb := congrArg (·.getLsbD i) h'
    simp only [BitVec.getLsbD_and, BitVec.getLsbD_or] at hb ⊢
    cases hw : w.getLsbD i <;> simp_all
  rw [inRow, inRow, this]

theorem inRow_iff (w mask mat : BitVec 32) : inRow w mask mat = true ↔ w &&& mask = mat := beq_iff_eq

/-- A word of one row is in no row whose fixed bits disagree with the first one's. -/
theorem inRow_of_conflict {w mask mat : BitVec 32} (mask' mat' : BitVec 32) (h : inRow w mask mat = true)
    (hc : (mat ^^^ mat') &&& mask &&& mask' ≠ 0) : inRow w mask' mat' = false := by
  cases h' : inRow w mask' mat' with
  | false => rfl
  | true =>
    refine absurd ?_ hc
    rw [inRow_iff] at h h'
    subst h h'
    apply BitVec.eq_of_getLsbD_eq
    intro i hi
    simp only [BitVec.getLsbD_and, BitVec.getLsbD_xor]
    cases w.getLsbD i <;> cases mask.getLsbD i <;> cases mask'.getLsbD i <;> simp

/-- A row that fixes `rd` to 0 holds only words with `rd = 0`. -/
theorem rdOf_of_inRow {w mask mat : BitVec 32} (h : inRow w mask mat = true) (hm : mask &&& 0xF80 = 0xF80)
    (h0 : mat &&& 0xF80 = 0) : rdOf w = 0 := by
  rw [inRow_iff] at h
  have hw : w &&& 0xF80 = 0 := by
    rw [← h0, ← h, BitVec.and_assoc, hm]
  apply BitVec.eq_of_getLsbD_eq
  intro i hi
  have hb := congrArg (·.getLsbD (7 + i)) hw
  have hk : (0xF80#32).getLsbD (7 + i) = true := by
    have : i = 0 ∨ i = 1 ∨ i = 2 ∨ i = 3 ∨ i = 4 := by omega
    rcases this with rfl | rfl | rfl | rfl | rfl <;> rfl
  simp only [BitVec.getLsbD_and] at hb
  rw [show (3968 : BitVec 32) = 0xF80#32 from rfl, hk] at hb
  simpa [rdOf, BitVec.getLsbD_extractLsb', hi] using hb

/-- `LPCNL_ENC` as the decoder uses it is usable. -/
theorem Config.usable_of_lpcnl {cfg : Config} {e : LpcnlEnc} (h : cfg.lpcnl = some e) : e.usable = true := by
  simp only [Config.lpcnl, Option.filter_eq_some_iff] at h
  exact h.2

/-- Without the parameter no encoding of `lpcnl` is used (R67). -/
theorem Config.lpcnl_none {cfg : Config} (h : cfg.lpcnlEnc = none) : cfg.lpcnl = none := by
  simp [Config.lpcnl, h]

/-! What decoding can answer, said once. -/

/-- A 16-bit parcel decodes to nothing but `C.JR`, `C.JALR` or `C.SLLI`, and only with `HAS_C`. -/
theorem decode16_cases {cfg : Config} {h : BitVec 16} {i : Instr} (hd : decode16 cfg h = .instr i) :
    cfg.hasC = true ∧
    ((h &&& 0xF07F = 0x8002 ∧ regOf16 h ≠ 0 ∧ i = .cJr (regOf16 h)) ∨
     (h &&& 0xF07F = 0x9002 ∧ regOf16 h ≠ 0 ∧ i = .cJalr (regOf16 h)) ∨
     (h &&& 0xE003 = 0x0002 ∧ ¬ (cfg.xlen = .rv32 ∧ h.getLsbD 12 = true) ∧
       i = .cSlli (regOf16 h) (h.extractLsb' 12 1 ++ h.extractLsb' 2 5))) := by
  unfold decode16 at hd
  split at hd
  · cases hd
  rename_i hc
  refine ⟨Bool.eq_true_of_not_eq_false hc, ?_⟩
  split at hd
  · rename_i hm
    split at hd
    · cases hd
    · rename_i hr
      cases hd
      exact .inl ⟨beq_iff_eq.1 hm, hr, rfl⟩
  split at hd
  · rename_i hm
    split at hd
    · cases hd
    · rename_i hr
      cases hd
      exact .inr (.inl ⟨beq_iff_eq.1 hm, hr, rfl⟩)
  split at hd
  · rename_i hm
    split at hd
    · cases hd
    · rename_i hr
      cases hd
      exact .inr (.inr ⟨beq_iff_eq.1 hm, hr, rfl⟩)
  · cases hd

/-- The words of priority 2 and below (R69): a Zimop fallback with `rd ≠ 0`, or `lpcnl` under its encoding. -/
theorem decodeFallback32_cases {cfg : Config} {w : BitVec 32} {i : Instr} (hd : decodeFallback32 cfg w = .instr i) :
    (inRow w 0xFE00707F 0x82004073 = true ∧ rdOf w ≠ 0 ∧ i = .mopRr0 (rdOf w) (w.extractLsb' 15 10)) ∨
    (inRow w 0xFE00707F 0x86004073 = true ∧ rdOf w ≠ 0 ∧ i = .mopRr1 (rdOf w) (w.extractLsb' 15 10)) ∨
    (∃ e, cfg.lpcnl = some e ∧ inRow w e.mask e.mat = true ∧ i = .lpcnl (w.extractLsb' e.pos 10)) := by
  unfold decodeFallback32 at hd
  split at hd
  · rename_i hm
    cases hd
    rw [Bool.and_eq_true] at hm
    exact .inl ⟨hm.1, bne_iff_ne.1 hm.2, rfl⟩
  split at hd
  · rename_i hm
    cases hd
    rw [Bool.and_eq_true] at hm
    exact .inr (.inl ⟨hm.1, bne_iff_ne.1 hm.2, rfl⟩)
  cases hl : cfg.lpcnl with
  | none =>
    rw [hl] at hd
    simp only at hd
    split at hd <;> cases hd
  | some e =>
    rw [hl] at hd
    simp only at hd
    split at hd
    · rename_i hm
      cases hd
      exact .inr (.inr ⟨e, rfl, hm, rfl⟩)
    · split at hd <;> cases hd

/-- A 32-bit word decodes by the row it is in (R69). -/
theorem decode32_cases {cfg : Config} {w : BitVec 32} {i : Instr} (hd : decode32 cfg w = .instr i) :
    (inRow w 0xFE007FFF 0x82004073 = true ∧ i = .lpcll (w.extractLsb' 15 10)) ∨
    (inRow w 0xFF807FFF 0x86804073 = true ∧ i = .lpcml (w.extractLsb' 15 8)) ∨
    (inRow w 0xFF807FFF 0x87804073 = true ∧ i = .lpcul (w.extractLsb' 15 8)) ∨
    (inRow w 0xFF807FFF 0x86004073 = true ∧ i = .lpsml (w.extractLsb' 15 8)) ∨
    (inRow w 0xFF807FFF 0x87004073 = true ∧ i = .lpsul (w.extractLsb' 15 8)) ∨
    (inRow w 0x0000007F 0x00000037 = true ∧ i = .lui (rdOf w) (w.extractLsb' 12 20)) ∨
    (inRow w 0x0000707F 0x00000013 = true ∧ i = .addi (rdOf w) (rs1Of w) (imm12Of w)) ∨
    (inRow w 0x0000707F 0x00000067 = true ∧ i = .jalr (rdOf w) (rs1Of w) (imm12Of w)) ∨
    (w = 0x30200073 ∧ i = .mret) ∨ (w = 0x10200073 ∧ i = .sret) ∨
    (inRow w 0xFE007FFF 0x82004073 = false ∧ decodeFallback32 cfg w = .instr i) := by
  unfold decode32 at hd
  split at hd
  · cases hd; exact .inl ⟨‹_›, rfl⟩
  rename_i hpad
  refine .inr ?_
  split at hd
  · cases hd; exact .inl ⟨‹_›, rfl⟩
  refine .inr ?_
  split at hd
  · cases hd; exact .inl ⟨‹_›, rfl⟩
  refine .inr ?_
  split at hd
  · cases hd; exact .inl ⟨‹_›, rfl⟩
  refine .inr ?_
  split at hd
  · cases hd; exact .inl ⟨‹_›, rfl⟩
  refine .inr ?_
  split at hd
  · cases hd; exact .inl ⟨‹_›, rfl⟩
  refine .inr ?_
  split at hd
  · cases hd; exact .inl ⟨‹_›, rfl⟩
  refine .inr ?_
  split at hd
  · cases hd; exact .inl ⟨‹_›, rfl⟩
  refine .inr ?_
  split at hd
  · rename_i hm; cases hd; exact .inl ⟨beq_iff_eq.1 hm, rfl⟩
  refine .inr ?_
  split at hd
  · rename_i hm; cases hd; exact .inl ⟨beq_iff_eq.1 hm, rfl⟩
  exact .inr ⟨Bool.eq_false_of_not_eq_true hpad, hd⟩

end Sys2Proof
end

