-- ==== Sys2Proof/Laws/Words.lean ====
section
/-! SUPPORT. The arithmetic modulo `2^XLEN` as numbers. -/

namespace Sys2Proof.Machine

open Sys2Proof

theorem wrap_toNat (x : Xlen) (v : Word) : (wrap x v).toNat = v.toNat % 2 ^ x.bits := by
  cases x
  · simp [wrap, Xlen.bits]; omega
  · exact (Nat.mod_eq_of_lt v.isLt).symm

theorem wrap_lt (x : Xlen) (v : Word) : (wrap x v).toNat < 2 ^ x.bits := by
  rw [wrap_toNat]; exact Nat.mod_lt _ (Nat.two_pow_pos _)

/-- `2^XLEN` divides `2^64`: sums may be taken modulo `2^64` first. -/
theorem mod_word (x : Xlen) (n : Nat) : n % 2 ^ 64 % 2 ^ x.bits = n % 2 ^ x.bits := by
  cases x <;> simp [Xlen.bits]

theorem pcPlus_toNat (x : Xlen) (pc : Word) (n : Nat) : (pcPlus x pc n).toNat = (pc.toNat + n) % 2 ^ x.bits := by
  rw [pcPlus, wrap_toNat, BitVec.toNat_add, BitVec.toNat_ofNat, mod_word]
  cases x <;> (simp [Xlen.bits]; try omega)

theorem pcPlus_lt (x : Xlen) (pc : Word) (n : Nat) : (pcPlus x pc n).toNat < 2 ^ x.bits := wrap_lt _ _

theorem shiftLeft_toNat (x : Xlen) (a : Word) (sh : BitVec 6) :
    (shiftLeft x a sh).toNat = (a.toNat * 2 ^ sh.toNat) % 2 ^ x.bits := by
  rw [shiftLeft, wrap_toNat, BitVec.toNat_shiftLeft, mod_word, Nat.shiftLeft_eq]

theorem clearBit0_toNat (a : Word) : (clearBit0 a).toNat = a.toNat - a.toNat % 2 := by
  have h : clearBit0 a = (a >>> 1) <<< 1 := by
    apply BitVec.eq_of_getLsbD_eq
    intro i hi
    simp only [clearBit0, BitVec.getLsbD_and, BitVec.getLsbD_not, BitVec.getLsbD_shiftLeft, BitVec.getLsbD_ushiftRight]
    rcases Nat.eq_zero_or_pos i with rfl | hp
    · simp
    · have : 1 + (i - 1) = i := by omega
      simp [hi, this, show ¬ i < 1 by omega, show i ≠ 0 by omega]
  rw [h, BitVec.toNat_shiftLeft, BitVec.toNat_ushiftRight, Nat.shiftRight_eq_div_pow, Nat.shiftLeft_eq]
  have := a.isLt
  omega

theorem aligned4_iff (pc : Word) : aligned4 pc = true ↔ pc.toNat % 4 = 0 := by
  rw [aligned4, beq_iff_eq, ← BitVec.toNat_inj, BitVec.extractLsb'_toNat]
  simp

end Sys2Proof.Machine
end

