-- ==== Sys2Proof/Laws/Ops.lean ====
section
/-! SUPPORT. What each shared operation does, said once. -/

namespace Sys2Proof.Machine

open Sys2Proof

/-! Registers. -/

@[simp] theorem State.reg_zero (s : State) : s.reg 0 = 0 := rfl

@[simp] theorem State.setReg_zero (s : State) (v : Word) : s.setReg 0 v = s := rfl

theorem State.reg_setReg_same (s : State) (r : RegNum) (v : Word) (h : r ≠ 0) : (s.setReg r v).reg r = v := by
  rw [State.setReg, if_neg h, State.reg, if_neg h]
  exact Vector.getElem_set_self _

theorem State.reg_setReg_other (s : State) (r q : RegNum) (v : Word) (h : q ≠ r) : (s.setReg r v).reg q = s.reg q := by
  unfold State.setReg
  split
  · rfl
  · have hne : r.toNat ≠ q.toNat := fun e => h (BitVec.eq_of_toNat_eq e.symm)
    simp [State.reg, hne]

@[simp] theorem State.zimopFallback_zero (s : State) : s.zimopFallback 0 = s.advance 4 := rfl

/-! `xFCFIE` under the small updates. -/

/-- `xFCFIE` reads nothing but the mode and the seven enables. -/
theorem State.xfcfie_congr (s t : State) (hp : t.priv = s.priv) (hv : t.virt = s.virt) (h1 : t.mseccfg = s.mseccfg)
    (h2 : t.menvcfg = s.menvcfg) (h3 : t.henvcfg = s.henvcfg) (h4 : t.mstatus = s.mstatus)
    (h5 : t.vsstatus = s.vsstatus) : t.xfcfie = s.xfcfie := by
  simp [State.xfcfie, hp, hv, h1, h2, h3, h4, h5]

@[simp] theorem State.popInput_xfcfie (s : State) : s.popInput.xfcfie = s.xfcfie := rfl

@[simp] theorem State.setPc_xfcfie (s : State) (t : Word) : (s.setPc t).xfcfie = s.xfcfie := rfl

@[simp] theorem State.advance_xfcfie (s : State) (n : Nat) : (s.advance n).xfcfie = s.xfcfie := rfl

@[simp] theorem State.setElp_xfcfie (s : State) (e : Elp) : (s.setElp e).xfcfie = s.xfcfie := rfl

@[simp] theorem State.setLpl_xfcfie (s : State) (l : Lpl) : (s.setLpl l).xfcfie = s.xfcfie := rfl

@[simp] theorem State.setReg_xfcfie (s : State) (r : RegNum) (v : Word) : (s.setReg r v).xfcfie = s.xfcfie := by
  unfold State.setReg; split <;> rfl

@[simp] theorem State.expectPad_xfcfie (s : State) (i : Instr) : (s.expectPad i).xfcfie = s.xfcfie := by
  unfold State.expectPad; split <;> rfl

/-! Traps. -/

theorem State.delegatedTarget_may (s : State) (c : Cause) : s.mayTarget (s.delegatedTarget c) = true := by
  unfold State.delegatedTarget
  split
  · rfl
  · split
    · split <;> simp_all [State.mayTarget]
    · rfl

/-- A trap goes where it may go, whatever the oracle and the delegation registers say. -/
theorem State.trapTarget_may (s : State) (c : Cause) : s.mayTarget (s.trapTarget c) = true := by
  unfold State.trapTarget
  split
  · split
    · assumption
    · exact s.delegatedTarget_may c
  · exact s.delegatedTarget_may c

/-- A trap is the entry into one of the three modes; VS only with `V = 1`, S and VS only with `HAS_S` and never from M. -/
theorem State.takeTrap_cases (s : State) (c : Cause) :
    s.takeTrap c = s.enterM c ∨
    (s.takeTrap c = s.enterS c ∧ s.priv ≠ .m ∧ s.cfg.hasS = true) ∨
    (s.takeTrap c = s.enterVS c ∧ s.priv ≠ .m ∧ s.cfg.hasS = true ∧ s.virt = true) := by
  have h := s.trapTarget_may c
  unfold State.takeTrap
  cases hx : s.trapTarget c <;> rw [hx] at h
  · exact .inl rfl
  · exact .inr (.inl (by simp_all [State.mayTarget, State.trapEntry]))
  · exact .inr (.inr (by simp_all [State.mayTarget, State.trapEntry]))

theorem State.takeTrap_of_m (s : State) (c : Cause) (h : s.priv = .m) : s.takeTrap c = s.enterM c := by
  rcases s.takeTrap_cases c with e | ⟨-, e, -⟩ | ⟨-, e, -⟩
  · exact e
  · exact absurd h e
  · exact absurd h e

/-- Every trap uses up one answer of the oracle `TRAP_TARGET` and one free trap value. -/
theorem State.takeTrap_uses (s : State) (c : Cause) :
    (s.takeTrap c).targets = s.targets.tail ∧ (s.takeTrap c).freeCount = s.freeCount + 1 := by
  rcases s.takeTrap_cases c with h | ⟨h, -⟩ | ⟨h, -⟩ <;> rw [h] <;> exact ⟨rfl, rfl⟩

/-- Every trap clears `ELP` and leaves the registers, `lpl`, memory and the configuration alone (R195). -/
theorem State.takeTrap_keeps (s : State) (c : Cause) :
    (s.takeTrap c).elp = .noLpExpected ∧ (s.takeTrap c).regs = s.regs ∧ (s.takeTrap c).lpl = s.lpl ∧
    (s.takeTrap c).mem = s.mem ∧ (s.takeTrap c).cfg = s.cfg ∧ (s.takeTrap c).inputs = s.inputs ∧
    (s.takeTrap c).deleg = s.deleg ∧ (s.takeTrap c).mseccfg = s.mseccfg ∧ (s.takeTrap c).menvcfg = s.menvcfg ∧
    (s.takeTrap c).henvcfg = s.henvcfg ∧ (s.takeTrap c).mstatus.ufcfie = s.mstatus.ufcfie ∧
    (s.takeTrap c).vsstatus.ufcfie = s.vsstatus.ufcfie := by
  rcases s.takeTrap_cases c with h | ⟨h, -⟩ | ⟨h, -⟩ <;> rw [h] <;>
    exact ⟨rfl, rfl, rfl, rfl, rfl, rfl, rfl, rfl, rfl, rfl, rfl, rfl⟩

/-! The landing pad requirement. -/

theorem State.padMissing_iff (s : State) (d : Decoded) :
    s.padMissing d = true ↔ s.xfcfie = true ∧ s.elp = .lpExpected ∧ isLpcll d = false := by
  simp [State.padMissing, and_assoc]

theorem isLpcll_iff (d : Decoded) : isLpcll d = true ↔ ∃ flpl, d = .instr (.lpcll flpl) := by
  constructor
  · intro h
    cases d with
    | rejected _ => cases h
    | instr i => cases i <;> first | exact ⟨_, rfl⟩ | cases h
  · rintro ⟨_, rfl⟩; rfl

end Sys2Proof.Machine
end

