-- ==== Sys2Proof/Laws/PerInstr.lean ====
section
/-! SUPPORT. Statements about every instruction, one lemma per constructor. -/

namespace Sys2Proof.Laws.EncodedLength

open Sys2Proof

/-- The encoder gives every instruction a word of the instruction's length (R60, R173 to R175). -/
def Statement (i : Instr) : Prop := ∀ cfg w, encode cfg i = some w → w.bytes = i.bytes

theorem lpcll (flpl : BitVec 10) : Statement (.lpcll flpl) := fun _ _ h => by cases h; rfl

theorem lpcnl (nlpl : BitVec 10) : Statement (.lpcnl nlpl) := fun cfg w h => by
  obtain ⟨e, -, rfl⟩ := Option.map_eq_some_iff.1 h
  rfl

theorem lpcml (mlpl : BitVec 8) : Statement (.lpcml mlpl) := fun _ _ h => by cases h; rfl

theorem lpcul (ulpl : BitVec 8) : Statement (.lpcul ulpl) := fun _ _ h => by cases h; rfl

theorem lpsll (llpl : BitVec 9) : Statement (.lpsll llpl) := fun _ _ h => by cases h; rfl

theorem lpsml (mlpl : BitVec 8) : Statement (.lpsml mlpl) := fun _ _ h => by cases h; rfl

theorem lpsul (ulpl : BitVec 8) : Statement (.lpsul ulpl) := fun _ _ h => by cases h; rfl

theorem mopRr0 (rd : RegNum) (ignored : BitVec 10) : Statement (.mopRr0 rd ignored) := fun _ _ h => by cases h; rfl

theorem mopRr1 (rd : RegNum) (ignored : BitVec 10) : Statement (.mopRr1 rd ignored) := fun _ _ h => by cases h; rfl

theorem lui (rd : RegNum) (imm20 : BitVec 20) : Statement (.lui rd imm20) := fun _ _ h => by cases h; rfl

theorem addi (rd rs1 : RegNum) (imm12 : BitVec 12) : Statement (.addi rd rs1 imm12) := fun _ _ h => by cases h; rfl

theorem jalr (rd rs1 : RegNum) (imm12 : BitVec 12) : Statement (.jalr rd rs1 imm12) := fun _ _ h => by cases h; rfl

theorem cJr (rs1 : RegNum) : Statement (.cJr rs1) := fun _ _ h => by cases h; rfl

theorem cJalr (rs1 : RegNum) : Statement (.cJalr rs1) := fun _ _ h => by cases h; rfl

theorem cSlli (rd : RegNum) (shamt : BitVec 6) : Statement (.cSlli rd shamt) := fun _ _ h => by cases h; rfl

theorem mret : Statement .mret := fun _ _ h => by cases h; rfl

theorem sret : Statement .sret := fun _ _ h => by cases h; rfl

end Sys2Proof.Laws.EncodedLength
end

