-- ==== Sys2Proof/Laws/Step.lean ====
section
/-! SUPPORT. What a step can do, said once: the cases of R96. -/

namespace Sys2Proof.Machine

open Sys2Proof

/-- A step that answers a next state took an interrupt, took a fetch exception, took the illegal-instruction exception of
a missing landing pad, or executed the decoded instruction. -/
theorem step_cases {s t : State} (h : step s = .next t) :
    (∃ code, s.input.irq = some code ∧ t = s.popInput.takeTrap (Cause.ofIrq code)) ∨
    (s.input.irq = none ∧ ∃ f, s.input.fetchFault = some f ∧ t = s.popInput.takeTrap f.cause) ∨
    (s.input.irq = none ∧ s.input.fetchFault = none ∧ ∃ w, s.popInput.fetch = some w ∧
      s.popInput.padMissing (decode s.cfg w) = true ∧ t = s.popInput.raiseIllegal) ∨
    (s.input.irq = none ∧ s.input.fetchFault = none ∧ ∃ w i, s.popInput.fetch = some w ∧ decode s.cfg w = .instr i ∧
      s.popInput.padMissing (.instr i) = false ∧ exec i s.popInput = .next t) := by
  unfold step stepWith at h
  cases hirq : s.input.irq with
  | some code =>
    rw [hirq] at h
    exact .inl ⟨code, rfl, (Host.Outcome.next.inj h).symm⟩
  | none =>
    rw [hirq] at h
    cases hff : s.input.fetchFault with
    | some f =>
      rw [hff] at h
      exact .inr (.inl ⟨rfl, f, rfl, (Host.Outcome.next.inj h).symm⟩)
    | none =>
      rw [hff] at h
      cases hw : s.popInput.fetch with
      | none => rw [hw] at h; exact nomatch h
      | some w =>
        rw [hw] at h
        have h : runFetched exec w s.popInput = .next t := h
        unfold runFetched at h
        rw [State.popInput_cfg] at h
        cases hp : s.popInput.padMissing (decode s.cfg w) with
        | true =>
          rw [hp, if_pos rfl] at h
          exact .inr (.inr (.inl ⟨rfl, rfl, w, rfl, hp, (Host.Outcome.next.inj h).symm⟩))
        | false =>
          rw [hp, if_neg (by simp)] at h
          cases hd : decode s.cfg w with
          | rejected why => rw [hd] at h; exact nomatch h
          | instr i =>
            rw [hd] at h hp
            exact .inr (.inr (.inr ⟨rfl, rfl, w, i, rfl, hd, hp, h⟩))

end Sys2Proof.Machine
end

