-- ==== Sys2Proof/Tests/Slice0.lean ====
section
/-! SUPPORT. Tests against the spec's own words and vectors (95_test_vectors.md), the smoke tests of WellFormed, and for each
statement with hypotheses a witness that meets them. -/

namespace Sys2Proof.Tests

open Sys2Proof Sys2Proof.Machine

/-! Helpers. -/

/-- What a function of the next state gives, if there is a next state. -/
def after {α : Type} (o : Host.Outcome State Fault Refusal) (f : State → α) : Option α :=
  match o with
  | .next t => some (f t)
  | .fault _ => none
  | .refused _ => none

/-- The start state of 95_test_vectors.md: M-mode, `MFCFIE = 1`, `mtvec = 0x3000`; here at `pc`. -/
def start (pc : Word) : State :=
  { State.reset with mseccfg := ⟨true⟩, pc := pc, mtrap := { TrapCsrs.reset with tvec := ⟨0x3000, false⟩ } }

/-- The same with a landing pad expected. -/
def expecting (pc : Word) : State := { start pc with elp := .lpExpected }

/-- The same with CFI off. -/
def inactive (pc : Word) : State := { start pc with mseccfg := ⟨false⟩ }

/-- The start state on RV32. -/
def start32 (pc : Word) : State := { start pc with cfg := { Config.default with xlen := .rv32 } }

/-- The start state without `HAS_C`. -/
def startNoC (pc : Word) : State := { start pc with cfg := { Config.default with hasC := false } }

/-- A hart with the hypervisor extension, in a mode below M, everything delegated. -/
def below (p : Priv) (v : Bool) : State :=
  { start 0x1000 with
    cfg := { Config.default with hasH := true }, priv := p, virt := v,
    deleg := ⟨0xFFFFFFFFFFFFFFFF, 0xFFFFFFFFFFFFFFFF, 0xFFFFFFFFFFFFFFFF, 0xFFFFFFFFFFFFFFFF⟩,
    strap := { TrapCsrs.reset with tvec := ⟨0x4000, false⟩ }, vstrap := { TrapCsrs.reset with tvec := ⟨0x5000, true⟩ } }

/-- A 32-bit word of the state's memory at `pc`. -/
def withWord (s : State) (w : Nat) : State := s.withFetchWord 32 w

/-- An encoding of `lpcnl` in another Zimop space; any usable one would do (log 16). -/
def someEnc : LpcnlEnc := ⟨0x8A004073, 0xFE007FFF, 15⟩

/-- A configuration with that encoding. -/
def encCfg : Config := { Config.default with lpcnlEnc := some someEnc }

/-! Decoding: each word written out from the spec's encoding of it. -/

/-- 95_test_vectors.md 4.1 row 5, from the pattern of R62: 1000001 1010101010 100 00000 1110011. -/
theorem test_decode_lpcll :
    decode Config.default (.word 0b10000011010101010100000001110011) = .instr (.lpcll 0x2AA) := by decide

/-- 4.1 row 3: the word of `lpsll $0x1de` is `lpcll` (R66). -/
theorem test_decode_lpsll_word : decode Config.default (.word 0x82EF4073) = .instr (.lpcll 0x1DE) := by decide

/-- R63: 100001101 00010111 100 00000 1110011 (4.1 row 9). -/
theorem test_decode_lpcml :
    decode Config.default (.word 0b10000110100010111100000001110011) = .instr (.lpcml 0x17) := by decide

/-- R63: 100001111 00010011 100 00000 1110011 (4.1 row 14). -/
theorem test_decode_lpcul :
    decode Config.default (.word 0b10000111100010011100000001110011) = .instr (.lpcul 0x13) := by decide

/-- R65: 100001100 00010111 100 00000 1110011 (4.1 row 7). -/
theorem test_decode_lpsml :
    decode Config.default (.word 0b10000110000010111100000001110011) = .instr (.lpsml 0x17) := by decide

/-- R65: 100001110 00010011 100 00000 1110011 (4.1 row 12). -/
theorem test_decode_lpsul :
    decode Config.default (.word 0b10000111000010011100000001110011) = .instr (.lpsul 0x13) := by decide

/-- 4.1 rows 18 and 19 (R160, R161). -/
theorem test_decode_mopRr :
    decode Config.default (.word 0x820042F3) = .instr (.mopRr0 5 0) ∧
    decode Config.default (.word 0x86AAC2F3) = .instr (.mopRr1 5 0x155) := by decide

/-- R170, R171, R172: `lui x7, 0xAAB33`, `addi x7, x7, 0x554`, `jalr x1, 0(x10)`. -/
theorem test_decode_base32 :
    decode Config.default (.word 0xAAB333B7) = .instr (.lui 7 0xAAB33) ∧
    decode Config.default (.word 0x55438393) = .instr (.addi 7 7 0x554) ∧
    decode Config.default (.word 0x000500E7) = .instr (.jalr 1 10 0) := by decide

/-- R173, R174, R175: 1000 01010 0000010, 1001 01010 0000010, 000 0 00111 01010 10. -/
theorem test_decode_base16 :
    decode Config.default (.half 0b1000010100000010) = .instr (.cJr 10) ∧
    decode Config.default (.half 0b1001010100000010) = .instr (.cJalr 10) ∧
    decode Config.default (.half 0b0000001110101010) = .instr (.cSlli 7 10) := by decide

/-- R198, R199. -/
theorem test_decode_xret :
    decode Config.default (.word 0x30200073) = .instr .mret ∧
    decode Config.default (.word 0x10200073) = .instr .sret := by decide

/-- R67: 1000101 at bits 31:25 is no row by default and `lpcnl $0x333` under the parameter. -/
theorem test_decode_lpcnl :
    decode Config.default (.word 0x8B99C073) = .rejected .otherSystem100 ∧
    decode encCfg (.word 0x8B99C073) = .instr (.lpcnl 0x333) := by decide

/-- Rejections by name: 4.1 row 20, the reserved words of R173 and R174, R175 on RV32, R74 without `HAS_C`. -/
theorem test_decode_rejects :
    decode Config.default (.word 0x03134073) = .rejected .otherSystem100 ∧
    decode Config.default (.half 0x8002) = .rejected .reservedCJr ∧
    decode Config.default (.half 0x9002) = .rejected .cEbreak ∧
    decode { Config.default with xlen := .rv32 } (.half 0x13AA) = .rejected .shamtOnRv32 ∧
    decode { Config.default with hasC := false } (.half 0x8502) = .rejected .compressedAbsent ∧
    decode Config.default (.word 0x010000EF) = .rejected .notInTable := by decide

/-- Bytes as memory holds them: `0x83554073` is `73 40 55 83` (head of 95_test_vectors.md). -/
theorem test_decode_bytes :
    (decodeBytes Config.default [0x73, 0x40, 0x55, 0x83]).1 = .instr (.lpcll 0x2AA) ∧
    decodeTableWord 16 0x8502 = some (.cJr 10) := by decide

/-! WellFormed: an ill-formed term for each check. -/

theorem test_illformed_lpcnl : Instr.wf Config.default (.lpcnl 0x333) = false := by decide

theorem test_illformed_lpsll : Instr.wf Config.default (.lpsll 0x1DE) = false := by decide

theorem test_illformed_mopRr0 : Instr.wf Config.default (.mopRr0 0 0x155) = false := by decide

theorem test_illformed_mopRr1 : Instr.wf Config.default (.mopRr1 0 0x155) = false := by decide

theorem test_illformed_cJr : Instr.wf Config.default (.cJr 0) = false := by decide

theorem test_illformed_cJalr : Instr.wf Config.default (.cJalr 0) = false := by decide

theorem test_illformed_shamt : Instr.wf { Config.default with xlen := .rv32 } (.cSlli 7 32) = false := by decide

theorem test_illformed_noC :
    Instr.wf { Config.default with hasC := false } (.cJr 10) = false ∧
    Instr.wf { Config.default with hasC := false } (.cJalr 10) = false ∧
    Instr.wf { Config.default with hasC := false } (.cSlli 7 10) = false := by decide

/-- An `LPCNL_ENC` that shares a word with `lpcll` is not used (log 16). -/
theorem test_unusable_enc : LpcnlEnc.usable ⟨0x82004073, 0xFE007FFF, 15⟩ = false := by decide

/-! One step of each instruction (95_test_vectors.md sections 4.2 to 4.7; the row is in the comment). -/

/-- 4.2 rows 1 and 12: passes; bits 63:32 are not read. -/
theorem test_lpcll_passes :
    after (exec (.lpcll 0x2AA) ((expecting 0x2000).setReg 7 0x00000001AAB33000)) (fun t => (t.elp, t.pc)) =
      some (.noLpExpected, 0x2004) := by decide

/-- 4.2 row 4: `lpcll $0` at 0x2002 traps with `MPELP = 1`. -/
theorem test_lpcll_misaligned :
    after (exec (.lpcll 0) (expecting 0x2002)) (fun t => (t.elp, t.mstatus.mpelp, t.mtrap.epc, t.mtrap.cause.code, t.pc)) =
      some (.noLpExpected, .lpExpected, 0x2002, 2, 0x3000) := by decide

/-- 4.2 rows 23, 25. -/
theorem test_lpcnl :
    after (exec (.lpcnl 0x333) ((start 0x2002).setReg 7 0xAAB33000)) (·.pc) = some 0x2006 ∧
    after (exec (.lpcnl 0) ((start 0x2000).setReg 7 0xAAB33000)) (·.pc) = some 0x3000 := by decide

/-- 4.3 rows 1, 2. -/
theorem test_lpcml :
    after (exec (.lpcml 0x17) ((start 0x2000).setLpl ⟨0, 0x17, 0x13⟩)) (·.pc) = some 0x2004 ∧
    after (exec (.lpcml 0x18) ((start 0x2000).setLpl ⟨0, 0x17, 0x13⟩)) (·.pc) = some 0x3000 := by decide

/-- 4.3 rows 5, 6: compares `UL`, not `ML`. -/
theorem test_lpcul :
    after (exec (.lpcul 0x13) ((start 0x2000).setLpl ⟨0, 0x17, 0x13⟩)) (·.pc) = some 0x2004 ∧
    after (exec (.lpcul 0x13) ((start 0x2000).setLpl ⟨0, 0x13, 0x17⟩)) (·.pc) = some 0x3000 := by decide

/-- 4.4 row 8: the operation of R140. -/
theorem test_lpsll :
    after (exec (.lpsll 0x1DE) ((start 0x2000).setLpl ⟨5, 0x17, 0x13⟩)) (·.lpl) = some ⟨0x1DE, 0, 0⟩ := by decide

/-- 4.4 rows 3, 5. -/
theorem test_lpsml :
    after (exec (.lpsml 0) ((start 0x2000).setLpl ⟨0, 0x17, 0x13⟩)) (·.lpl) = some ⟨0, 0, 0x13⟩ ∧
    after (exec (.lpsml 0x55) ((inactive 0x2000).setLpl ⟨0, 0x17, 0x13⟩)) (·.lpl) = some ⟨0, 0x17, 0x13⟩ := by decide

/-- 4.4 row 4. -/
theorem test_lpsul :
    after (exec (.lpsul 0xFF) ((start 0x2000).setLpl ⟨0, 0x17, 0x13⟩)) (·.lpl) = some ⟨0, 0x17, 0xFF⟩ := by decide

/-- 4.5 rows 1, 3. -/
theorem test_mopRr :
    after (exec (.mopRr0 5 0) ((start 0x2002).setReg 5 0x1234)) (fun t => (t.reg 5, t.pc)) = some (0, 0x2006) ∧
    after (exec (.mopRr1 5 0x155) ((start 0x2000).setReg 5 0x1234)) (fun t => (t.reg 5, t.pc)) = some (0, 0x2004) := by
  decide

/-- 4.6 row 1: RV64 and RV32. -/
theorem test_lui :
    after (exec (.lui 7 0xAAB33) (start 0x1000)) (·.reg 7) = some 0xFFFFFFFFAAB33000 ∧
    after (exec (.lui 7 0xAAB33) (start32 0x1000)) (·.reg 7) = some 0xAAB33000 := by decide

/-- 4.6 row 3; and R171: `imm12[11] == 1` subtracts, wrapping on RV32. -/
theorem test_addi :
    after (exec (.addi 7 7 0x554) ((start32 0x1000).setReg 7 0xAAB33000)) (·.reg 7) = some 0xAAB33554 ∧
    after (exec (.addi 7 0 0xFFF) (start32 0x1000)) (·.reg 7) = some 0xFFFFFFFF := by decide

/-- 4.6 row 5: RV32 and RV64. -/
theorem test_cSlli :
    after (exec (.cSlli 7 10) ((start32 0x1000).setReg 7 0xAAB33554)) (·.reg 7) = some 0xCCD55000 ∧
    after (exec (.cSlli 7 10) ((start 0x1000).setReg 7 0xFFFFFFFFAAB33554)) (fun t => (t.reg 7, t.pc)) =
      some (0xFFFFFEAACCD55000, 0x1002) := by decide

/-- 4.6 row 6. -/
theorem test_jalr :
    after (exec (.jalr 1 10 0) ((start 0x100).setReg 10 0x201)) (fun t => (t.pc, t.reg 1, t.elp)) =
      some (0x200, 0x104, .lpExpected) := by decide

/-- 4.6 row 7: the software guarded jump. -/
theorem test_jalr_guarded :
    after (exec (.jalr 7 7 0) ((start 0x100).setReg 7 0x2000)) (fun t => (t.pc, t.reg 7, t.elp)) =
      some (0x2000, 0x104, .noLpExpected) := by decide

/-- Section 3 rows 11 and 13: a return, and `c.jr x7`, which is not guarded. -/
theorem test_cJr :
    after (exec (.cJr 1) ((start 0x100).setReg 1 0x300)) (fun t => (t.pc, t.elp)) = some (0x300, .noLpExpected) ∧
    after (exec (.cJr 7) ((start 0x100).setReg 7 0x300)) (fun t => (t.pc, t.elp)) = some (0x300, .lpExpected) := by decide

/-- 4.6 row 8, and R174: `rs1 == x1` jumps to the old `x1`. -/
theorem test_cJalr :
    after (exec (.cJalr 10) ((start 0x100).setReg 10 0x200)) (fun t => (t.pc, t.reg 1, t.elp)) =
      some (0x200, 0x102, .lpExpected) ∧
    after (exec (.cJalr 1) ((start 0x100).setReg 1 0x200)) (fun t => (t.pc, t.reg 1, t.elp)) =
      some (0x200, 0x102, .noLpExpected) := by decide

/-- The state of P5 before its `mret`. -/
def inHandler : State :=
  { start 0x3004 with
    mstatus := { State.reset.mstatus with mpelp := .lpExpected, mpp := .u },
    mtrap := { TrapCsrs.reset with epc := 0x2000 } }

/-- 4.7 rows 6 and 10. -/
theorem test_mret :
    after (exec .mret inHandler) (fun t => (t.elp, t.mstatus.mpelp, t.pc, t.priv)) =
      some (.lpExpected, .noLpExpected, 0x2000, .u) := by decide

/-- R198: below M. -/
theorem test_mret_in_s : after (exec .mret (below .s false)) (·.strap.cause.code) = some 2 := by decide

/-- 4.7 row 8. -/
theorem test_sret :
    after (exec .sret { below .s false with mstatus := { State.reset.mstatus with spelp := .lpExpected } })
      (fun t => (t.elp, t.mstatus.spelp, t.vsstatus.spelp, t.priv)) =
      some (.lpExpected, .noLpExpected, .noLpExpected, .u) := by decide

/-- 4.7 row 9. -/
theorem test_sret_vs :
    after (exec .sret
      { below .s true with
        mstatus := { State.reset.mstatus with spelp := .lpExpected },
        vsstatus := { State.reset.vsstatus with spelp := .lpExpected } })
      (fun t => (t.elp, t.vsstatus.spelp, t.mstatus.spelp, t.virt)) =
      some (.lpExpected, .noLpExpected, .lpExpected, true) := by decide

/-! The step. -/

/-- 4.2 row 15 and P2: an `addi` where a landing pad is due does not execute. -/
theorem test_step_no_pad :
    after (step (withWord (expecting 0x2000) 0x00100593))
      (fun t => (t.reg 11, t.elp, t.mstatus.mpelp, t.mtrap.epc, t.pc)) =
      some (0, .noLpExpected, .lpExpected, 0x2000, 0x3000) := by decide

/-- 4.2 row 22: it executes while CFI is not active, and `ELP` stays. -/
theorem test_step_inactive :
    after (step (withWord { inactive 0x2000 with elp := .lpExpected } 0x00100593)) (fun t => (t.reg 11, t.elp)) =
      some (1, .lpExpected) := by decide

/-- 4.7 row 3: a trap into VS, vectored. -/
theorem test_step_interrupt_vs :
    after (step { below .u true with elp := .lpExpected, inputs := [⟨some 9, none⟩] })
      (fun t => (t.vsstatus.spelp, t.mstatus.spelp, t.elp, t.priv, t.virt, t.pc)) =
      some (.lpExpected, .noLpExpected, .noLpExpected, .s, true, 0x5024) := by decide

/-- 60_exceptions.md R193: the same interrupt goes into the mode the oracle names, here HS and M. -/
theorem test_trap_target_oracle :
    after (step { below .u true with inputs := [⟨some 9, none⟩], targets := [.s] }) (fun t => (t.priv, t.virt)) =
      some (.s, false) ∧
    after (step { below .u true with inputs := [⟨some 9, none⟩], targets := [.m, .s] }) (fun t => (t.priv, t.targets)) =
      some (.m, [.s]) := by decide

/-- A word that no row selects is refused, one that memory does not hold faults. -/
theorem test_step_stops :
    step (start 0x2000) = .fault (.unwrittenFetch 0x2000) ∧
    step (withWord (start 0x2000) 0x03134073) = .refused (.undecodable .otherSystem100 (.word 0x03134073)) :=
  ⟨rfl, rfl⟩

/-- Rows 1 to 16 of section 2: the enables in the five modes. -/
theorem test_xfcfie :
    (start 0).xfcfie = true ∧
    ({ below .s false with menvcfg := ⟨true, true⟩ } : State).xfcfie = true ∧
    ({ below .u false with menvcfg := ⟨true, true⟩ } : State).xfcfie = false ∧
    ({ below .s true with menvcfg := ⟨true, true⟩, henvcfg := ⟨false, true⟩ } : State).xfcfie = false ∧
    ({ below .s true with menvcfg := ⟨true, false⟩, henvcfg := ⟨true, true⟩ } : State).xfcfie = true ∧
    ({ below .s true with menvcfg := ⟨false, true⟩, henvcfg := ⟨true, true⟩ } : State).xfcfie = false := by decide

/-! Witnesses: for each statement with hypotheses, a state and operands that meet them, clause by clause. -/

theorem witness_DecodeOfEncode :
    Instr.wf Config.default (.mopRr0 31 0x3FF) = true ∧ Instr.wf Config.default (.cJr 1) = true ∧
    Instr.wf Config.default (.cSlli 31 63) = true ∧ Instr.wf encCfg (.lpcnl 0x3FF) = true ∧
    Instr.wf { Config.default with xlen := .rv32 } (.cSlli 31 31) = true := by decide

theorem witness_EncodeOfDecode :
    decode Config.default (.word 0x83FFC073) = .instr (.lpcll 0x3FF) ∧ (∀ n, Instr.lpcll 0x3FF ≠ .lpcnl n) :=
  ⟨by decide, by intro n h; cases h⟩

/-- The first and the last word of the `lpsll` figure. -/
theorem witness_LpsllWordsAreLpcll :
    0x82004073#32 &&& 0xFF007FFF = 0x82004073 ∧ 0x82FFC073#32 &&& 0xFF007FFF = 0x82004073 := by decide

theorem witness_LpcnlNeedsItsEncoding : Config.default.lpcnlEnc = none := by decide

/-- A 16-bit and a 32-bit instruction, the latter at the last halfword of the RV32 space, where its bytes wrap. -/
theorem witness_FetchIsLittleEndian :
    (∃ s : State, s.mem.read s.pc.toNat = some 0x02 ∧
      s.mem.read ((s.pc.toNat + 1) % 2 ^ s.cfg.xlen.bits) = some 0x85 ∧ (0x02#8).toNat % 4 ≠ 3) ∧
    (∃ s : State, s.cfg.xlen = .rv32 ∧ s.pc = 0xFFFFFFFE ∧ s.mem.read s.pc.toNat = some 0x73 ∧
      s.mem.read ((s.pc.toNat + 1) % 2 ^ s.cfg.xlen.bits) = some 0x40 ∧ (0x73#8).toNat % 4 = 3 ∧
      s.mem.read ((s.pc.toNat + 2) % 2 ^ s.cfg.xlen.bits) = some 0x55 ∧
      s.mem.read ((s.pc.toNat + 3) % 2 ^ s.cfg.xlen.bits) = some 0x83) :=
  ⟨⟨withWord (start 0x2000) 0x8502, by decide⟩, ⟨withWord (start32 0xFFFFFFFE) 0x83554073, by decide⟩⟩

/-- Both lengths, and the landing pad where one is due. -/
theorem witness_PlacedWordRuns :
    ((0x8502#16).toNat % 4 ≠ 3 ∧ decode (start 0x2000).cfg (.half 0x8502) = .instr (.cJr 10)) ∧
    (0x00100593#32).toNat % 4 = 3 ∧ decode (start 0x2000).cfg (.word 0x00100593) = .instr (.addi 11 0 1) ∧
    ¬ (start 0x2000).padDue ∧
    (0x82004073#32).toNat % 4 = 3 ∧ decode (expecting 0x2000).cfg (.word 0x82004073) = .instr (.lpcll 0) ∧
    (∃ flpl, Instr.lpcll 0 = .lpcll flpl) :=
  ⟨by decide, by decide, by decide, by decide, by decide, by decide, _, rfl⟩

theorem witness_XfcfieListing :
    (start 0).priv = .m ∧ ((below .s false).priv = .s ∧ (below .s false).virt = false) ∧
    ((below .u false).priv = .u ∧ (below .u false).virt = false) ∧
    ((below .s true).priv = .s ∧ (below .s true).virt = true) ∧
    ((below .u true).priv = .u ∧ (below .u true).virt = true) ∧
    (let s := start 0
     let t := s.setElp .lpExpected
     t.priv = s.priv ∧ t.virt = s.virt ∧ t.mseccfg.mfcfie = s.mseccfg.mfcfie ∧ t.menvcfg.cfie = s.menvcfg.cfie ∧
       t.menvcfg.sfcfie = s.menvcfg.sfcfie ∧ t.mstatus.ufcfie = s.mstatus.ufcfie ∧
       t.henvcfg.cfie = s.henvcfg.cfie ∧ t.henvcfg.sfcfie = s.henvcfg.sfcfie ∧
       t.vsstatus.ufcfie = s.vsstatus.ufcfie) := by decide

theorem witness_LpExpectedPredicate :
    isLpExpected (.jalr 0 0 0) = true ∧ isLpExpected (.cJr 7) = true ∧ isLpExpected (.cJalr 7) = true := by decide

theorem witness_LpcllLands :
    ((expecting 0x2000).xfcfie = true ∧ (expecting 0x2000).pc.toNat % 4 = 0 ∧ (0 : BitVec 10) = 0) ∧
    (let s := (start 0x2000).setReg 7 0xFFC00000
     s.xfcfie = true ∧ s.pc.toNat % 4 = 0 ∧ (0x3FF#10).toNat = s.firstLabelNum) := by decide

theorem witness_LpcllTraps :
    ((expecting 0x2002).xfcfie = true ∧ (expecting 0x2002).pc.toNat % 4 ≠ 0 ∧ (expecting 0x2002).priv = .m) ∧
    (let s := (start 0x2000).setReg 7 0x003FFFFF
     s.xfcfie = true ∧ 0x3FF#10 ≠ 0 ∧ (0x3FF#10).toNat ≠ s.firstLabelNum ∧ s.priv = .m) := by decide

theorem witness_LpcnlChecksNextLabel :
    let s := (start 0x2002).setReg 7 0xAAB33000
    s.xfcfie = true ∧ (0x333#10).toNat = s.nextLabelNum ∧ (0#10).toNat ≠ s.nextLabelNum := by decide

theorem witness_LpcmlChecksMiddleLabel :
    let s := (start 0x2002).setLpl ⟨0, 0xFF, 0x13⟩
    s.xfcfie = true ∧ s.lpl.ml = 0xFF ∧ s.lpl.ml ≠ 0 := by decide

theorem witness_LpculChecksUpperLabel :
    let s := (start 0x2002).setLpl ⟨0, 0x17, 0xFF⟩
    s.xfcfie = true ∧ s.lpl.ul = 0xFF ∧ s.lpl.ul ≠ 0 := by decide

theorem witness_LabelSetResults : (start 0x2002).xfcfie = true := by decide

theorem witness_InactiveCfiIsNoOp :
    isCfi (.lpcll 0x2AA) = true ∧ isCfi (.lpsul 0) = true ∧ (inactive 0x2002).xfcfie = false := by decide

theorem witness_MopRrWritesZero : Instr.mopRr1 0 0x3FF = .mopRr0 0 0x3FF ∨ Instr.mopRr1 0 0x3FF = .mopRr1 0 0x3FF := by
  decide

theorem witness_LuiResult : 0xFFFFF037#32 &&& 0x0000007F = 0x00000037 := by decide

theorem witness_AddiResult : 0xFFF00013#32 &&& 0x0000707F = 0x00000013 := by decide

/-- With `HAS_C` and bit 1 of the target set; without, and the target's bit 1 clear; a landing pad expected, and each reason
for none. -/
theorem witness_JalrResult :
    ((start 0x100).cfg.hasC = true ∧ ((start 0x100).setReg 10 0x202).sumImm 10 0 / 2 % 2 = 1 ∧
      (start 0x100).xfcfie = true ∧ (10 : RegNum) ≠ 1 ∧ (10 : RegNum) ≠ 5 ∧ ¬ ((0 : RegNum) = 7 ∧ (10 : RegNum) = 7)) ∧
    ((startNoC 0x100).cfg.hasC = false ∧ ((startNoC 0x100).setReg 7 0x204).sumImm 7 1 / 2 % 2 = 0) ∧
    (inactive 0x100).xfcfie = false := by decide

theorem witness_JalrMisalignedTraps :
    let s := (startNoC 0x100).setReg 10 0xFFFFFFFFFFFFFFFF
    s.cfg.hasC = false ∧ s.sumImm 10 0 / 2 % 2 = 1 ∧ s.priv = .m := by decide

theorem witness_CJrResult :
    (start 0x100).xfcfie = true ∧ (7 : RegNum) ≠ 1 ∧ (7 : RegNum) ≠ 5 ∧ (inactive 0x100).xfcfie = false := by decide

theorem witness_CJalrResult :
    (start 0x100).xfcfie = true ∧ (7 : RegNum) ≠ 1 ∧ (7 : RegNum) ≠ 5 ∧ (inactive 0x100).xfcfie = false := by decide

theorem witness_ReturnsAreOutside :
    (Instr.cJr 5 = .jalr 0 5 0 ∨ Instr.cJr 5 = .cJr 5 ∨ Instr.cJr 5 = .cJalr 5) ∧ (5 : RegNum) = 5 ∧
    (start 0x100).cfg.hasC = true ∧
    (Instr.jalr 1 1 0 = .jalr 1 1 0 ∨ Instr.jalr 1 1 0 = .cJr 1 ∨ Instr.jalr 1 1 0 = .cJalr 1) ∧
    (startNoC 0x100).sumImm 1 0 / 2 % 2 = 0 := by decide

theorem witness_MretResult :
    (inHandler.priv = .m ∧ inHandler.mstatus.mpp ≠ .m ∧ inHandler.cfg.hasH = false) ∧
    (let s : State := { below .m false with mstatus := { State.reset.mstatus with mpp := .s, mpv := true } }
     s.priv = .m ∧ s.mstatus.mpp ≠ .m ∧ s.cfg.hasH = true) ∧
    (let s : State := { start 0 with mstatus := { State.reset.mstatus with mpp := .m } }
     s.priv = .m ∧ s.mstatus.mpp = .m) := by decide

theorem witness_MretBelowMTraps : (below .s true).priv ≠ .m ∧ (below .u false).priv ≠ .m := by decide

theorem witness_SretResult :
    (let s := start 0
     s.cfg.hasS = true ∧ s.virt = false ∧ s.priv = .m ∧ s.mstatus.spp = .u) ∧
    (let s : State := { below .s false with mstatus := { State.reset.mstatus with spp := .s } }
     s.cfg.hasS = true ∧ s.virt = false ∧ s.priv = .s ∧ s.mstatus.tsr = false ∧ s.mstatus.spp = .s) := by decide

theorem witness_SretVsResult :
    (let s := below .s true
     s.cfg.hasS = true ∧ s.virt = true ∧ s.priv = .s ∧ s.hstatus.vtsr = false ∧ s.vsstatus.spp = .u) ∧
    (let s : State := { below .s true with vsstatus := { State.reset.vsstatus with spp := .s } }
     s.cfg.hasS = true ∧ s.virt = true ∧ s.priv = .s ∧ s.hstatus.vtsr = false ∧ s.vsstatus.spp = .s) := by decide

theorem witness_SretTraps :
    (let s := below .u false
     s.cfg.hasS = true ∧ s.virt = false ∧ s.priv = .u) ∧
    (let s : State := { below .s false with mstatus := { State.reset.mstatus with tsr := true } }
     s.cfg.hasS = true ∧ s.virt = false ∧ s.priv = .s ∧ s.mstatus.tsr = true) ∧
    (let s : State := { below .s true with hstatus := ⟨false, true⟩ }
     s.cfg.hasS = true ∧ s.virt = true ∧ s.priv = .s ∧ s.hstatus.vtsr = true) := by decide

theorem witness_SretChosenTraps :
    ({ start 0 with cfg := { Config.default with hasS := false } } : State).cfg.hasS = false ∧
    (let s := below .u true
     s.cfg.hasS = true ∧ s.virt = true ∧ s.priv = .u) := by decide

theorem witness_TrapSavesElp : TrapMode.m = .m ∧ TrapMode.s = .s ∧ TrapMode.vs = .vs := by decide

/-- Each clause of the entry: without and with vectored mode, from each mode, with `HAS_H`. -/
theorem witness_TrapEntryBase :
    (let s := below .u true
     s.cfg.hasH = true ∧ s.priv = .u ∧ s.mtrap.tvec.vectored = false ∧ s.strap.tvec.vectored = false ∧
       (Cause.ofIrq 63).interrupt = true ∧ s.vstrap.tvec.vectored = true ∧
       Cause.illegalInstruction.interrupt = false) ∧
    (let s : State :=
       { below .s false with
         mtrap := { TrapCsrs.reset with tvec := ⟨0x3000, true⟩ }, strap := { TrapCsrs.reset with tvec := ⟨0x4000, true⟩ } }
     s.priv = .s ∧ (Cause.ofIrq 63).interrupt = true ∧ s.mtrap.tvec.vectored = true ∧ s.strap.tvec.vectored = true) := by
  decide

theorem witness_TrapTargetByDelegation :
    (start 0).priv = .m ∧ (below .s false).targets = [] ∧ (below .u true).targets = [] ∧
    ({ below .s false with deleg := ⟨0, 0, 0, 0⟩ } : State).deleg.medeleg.getLsbD (63#6).toNat = false ∧
    ({ below .s false with deleg := ⟨0, 0, 0, 0⟩ } : State).deleg.mideleg.getLsbD (63#6).toNat = false ∧
    (let s := below .u false
     s.priv ≠ .m ∧ s.cfg.hasS = true ∧ s.virt = false ∧ s.deleg.medeleg.getLsbD (2#6).toNat = true ∧
       s.deleg.mideleg.getLsbD (2#6).toNat = true) ∧
    (let s := below .u true
     s.priv ≠ .m ∧ s.cfg.hasS = true ∧ s.virt = true ∧ s.deleg.medeleg.getLsbD (63#6).toNat = true ∧
       s.deleg.hedeleg.getLsbD (63#6).toNat = true ∧ s.deleg.mideleg.getLsbD (63#6).toNat = true ∧
       s.deleg.hideleg.getLsbD (63#6).toNat = true) := by decide

theorem witness_TrapThenReturnResumes :
    modeExists (start 0).cfg (start 0).priv (start 0).virt ∧
    (let s := below .u true
     modeExists s.cfg s.priv s.virt ∧ s.priv ≠ .m ∧ s.cfg.hasS = true ∧ s.mstatus.tsr = false ∧ s.virt = true ∧
       s.hstatus.vtsr = false) :=
  ⟨rfl, ⟨rfl, fun _ => rfl⟩, by decide, rfl, rfl, rfl, rfl⟩

theorem witness_StepRunsDecoded :
    (let s := withWord (start 0x2000) 0x00100593
     s.input.irq = none ∧ s.input.fetchFault = none ∧ s.fetch = some (.word 0x00100593) ∧
       decode s.cfg (.word 0x00100593) = .instr (.addi 11 0 1) ∧ ¬ s.padDue) ∧
    (let s := withWord (expecting 0x2000) 0x83554073
     s.input.irq = none ∧ s.input.fetchFault = none ∧ s.fetch = some (.word 0x83554073) ∧
       decode s.cfg (.word 0x83554073) = .instr (.lpcll 0x2AA)) := by decide

theorem witness_InterruptThenFetchException :
    (let s : State := { expecting 0x2000 with inputs := [⟨some 63, some .pageFault⟩] }
     s.input.irq = some 63 ∧ s.priv = .m) ∧
    (let s : State := { expecting 0x2000 with inputs := [⟨none, some .accessFault⟩] }
     s.input.irq = none ∧ s.input.fetchFault = some .accessFault ∧ s.priv = .m) := by decide

/-- An instruction that is no landing pad, and a word that is no instruction. -/
theorem witness_MissingPadTraps :
    (let s := withWord (expecting 0x2000) 0x00100593
     s.padDue ∧ s.input.irq = none ∧ s.input.fetchFault = none ∧ s.fetch = some (.word 0x00100593) ∧
       (∀ flpl, decode s.cfg (.word 0x00100593) ≠ .instr (.lpcll flpl)) ∧ s.priv = .m) ∧
    (let s := withWord (expecting 0x2000) 0x03134073
     s.padDue ∧ s.input.irq = none ∧ s.input.fetchFault = none ∧ s.fetch = some (.word 0x03134073) ∧
       ∀ flpl, decode s.cfg (.word 0x03134073) ≠ .instr (.lpcll flpl)) :=
  ⟨⟨by decide, by decide, by decide, by decide, fun f h => (by cases h), by decide⟩,
    ⟨by decide, by decide, by decide, by decide, fun f h => (by cases h)⟩⟩

/-- Both outcomes: a landing pad, and a trap. -/
theorem witness_OnlyPadRunsWhenDue :
    (∃ t, (withWord (expecting 0x2000) 0x82004073).padDue ∧ step (withWord (expecting 0x2000) 0x82004073) = .next t ∧ t.pc = 0x2004) ∧
    (∃ t, (withWord (expecting 0x2002) 0x82004073).padDue ∧ step (withWord (expecting 0x2002) 0x82004073) = .next t ∧ t.pc = 0x3000) :=
  ⟨⟨_, by decide, rfl, by decide⟩, ⟨_, by decide, rfl, by decide⟩⟩

/-- P1's jump and its landing pad: `c.jr x10` at 0x1000, `lpcll $0` at 0x2000. -/
def jumping : State :=
  (withWord ({ withWord (start 0x2000) 0x82004073 with pc := 0x1000 } : State) 0x8502).setReg 10 0x2000

/-- `jalr x0, 0(x10)` at 0x1000 to 0x2000, without `HAS_C`. -/
def jumpingNoC : State := (withWord (startNoC 0x1000) 0x00050067).setReg 10 0x2000

theorem witness_JumpLandsOnPadOrTraps :
    (jumping.xfcfie = true ∧ jumping.elp = .noLpExpected ∧ jumping.runs (.cJr 10) ∧ isLpExpected (.cJr 10) = true ∧
      (∀ rd rs1 imm12, Instr.cJr 10 ≠ .jalr rd rs1 imm12) ∧
      ∃ t u, step jumping = .next t ∧ step t = .next u ∧ u.pc = 0x2004) ∧
    (jumpingNoC.xfcfie = true ∧ jumpingNoC.elp = .noLpExpected ∧ jumpingNoC.runs (.jalr 0 10 0) ∧
      isLpExpected (.jalr 0 10 0) = true ∧ jumpingNoC.cfg.hasC = false ∧ jumpingNoC.sumImm 10 0 / 2 % 2 = 0) :=
  ⟨⟨by decide, by decide, ⟨rfl, rfl, .half 0x8502, by decide, by decide⟩, by decide, fun _ _ _ h => (by cases h), _, _,
      rfl, rfl, by decide⟩,
    ⟨by decide, by decide, ⟨rfl, rfl, .word 0x00050067, by decide, by decide⟩, by decide, by decide, by decide⟩⟩

theorem witness_ElpWriters :
    (∃ t, step jumping = .next t ∧ t.elp ≠ jumping.elp) ∧
    (∃ t, step (withWord (expecting 0x2000) 0x82004073) = .next t ∧ t.elp ≠ (expecting 0x2000).elp) ∧
    (∃ t, step (withWord inHandler 0x30200073) = .next t ∧ t.elp ≠ inHandler.elp) ∧
    (let s : State := { below .s false with mstatus := { State.reset.mstatus with spelp := .lpExpected } }
     ∃ t, step (withWord s 0x10200073) = .next t ∧ t.elp ≠ s.elp) ∧
    (let s : State := { below .s true with vsstatus := { State.reset.vsstatus with spelp := .lpExpected } }
     ∃ t, step (withWord s 0x10200073) = .next t ∧ t.elp ≠ s.elp) ∧
    (∃ t, step ({ expecting 0x2000 with inputs := [⟨some 9, none⟩] } : State) = .next t ∧
      t.elp ≠ (expecting 0x2000).elp) :=
  ⟨⟨_, rfl, by decide⟩, ⟨_, rfl, by decide⟩, ⟨_, rfl, by decide⟩, ⟨_, rfl, by decide⟩, ⟨_, rfl, by decide⟩,
    ⟨_, rfl, by decide⟩⟩

theorem witness_LplWriters :
    (∃ t, step (withWord (start 0x2000) 0x867FC073) = .next t ∧ t.lpl.ml ≠ (start 0x2000).lpl.ml) ∧
    (∃ t, step (withWord (start 0x2000) 0x877FC073) = .next t ∧ t.lpl.ul ≠ (start 0x2000).lpl.ul) :=
  ⟨⟨_, rfl, by decide⟩, ⟨_, rfl, by decide⟩⟩

theorem witness_ModeWriters :
    (∃ t, step (withWord inHandler 0x30200073) = .next t ∧ t.priv ≠ inHandler.priv) ∧
    (∃ t, step ({ below .u true with inputs := [⟨none, some .pageFault⟩] } : State) = .next t ∧
      t.priv ≠ (below .u true).priv) :=
  ⟨⟨_, rfl, by decide⟩, ⟨_, rfl, by decide⟩⟩

theorem witness_StepKeepsEnables : ∃ t, step (withWord (start 0x2000) 0x00100593) = .next t := ⟨_, rfl⟩

/-- A state with the invariant that steps: a word placed in the reset state. -/
theorem witness_StepKeepsInv : (withWord State.reset 0x00100593).Inv ∧
    ∃ t, step (withWord State.reset 0x00100593) = .next t := by
  have ok : ∀ t, t = TrapCsrs.reset → TrapCsrs.ok Config.default t := by
    rintro _ rfl
    exact ⟨by decide, by decide, by decide⟩
  refine ⟨⟨by decide, by decide, by decide, by decide, ?_, by decide, ok _ rfl, ok _ rfl, ok _ rfl, rfl, ?_⟩, _, rfl⟩
  · intro r
    change (State.reset.reg r).toNat < 2 ^ 64
    exact (State.reset.reg r).isLt
  · exact ⟨rfl, fun h => nomatch h⟩

theorem witness_StepStopsByName :
    (let s := start 0x2000
     s.input.irq = none ∧ s.input.fetchFault = none ∧ s.fetch = none) ∧
    (let s := withWord (start 0x2000) 0x03134073
     s.input.irq = none ∧ s.input.fetchFault = none ∧ s.fetch = some (.word 0x03134073) ∧
       decode s.cfg (.word 0x03134073) = .rejected .otherSystem100 ∧ ¬ s.padDue) ∧
    (let s := withWord (start 0x2000) 0x00100593
     s.input.irq = none ∧ s.input.fetchFault = none ∧ s.fetch = some (.word 0x00100593) ∧
       decode s.cfg (.word 0x00100593) = .instr (.addi 11 0 1)) := by decide

theorem witness_UpperHalfOfX7Unread :
    isCfi (.lpcll 0x2AA) = true ∧ (0xAAB33000#64).toNat % 2 ^ 32 = (0xFFFFFFFFAAB33000#64).toNat % 2 ^ 32 := by decide

theorem witness_SstatusViewOfSpelp : (below .s false).virt = false ∧ (below .s true).virt = true := by decide

/-- Granted in M, in HS and in VS (through the view), and refused in VS beyond it. -/
theorem witness_CsrFieldReadBack :
    (∃ t, (start 0).softwareWrite .mseccfgMFCFIE false = some t) ∧
    (∃ t, (below .s false).softwareWrite .henvcfgSFCFIE true = some t) ∧
    (∃ t, (below .s true).softwareWrite .sstatusSPELP true = some t ∧
      (below .s true).homeOf .vsstatusSPELP = (below .s true).homeOf .sstatusSPELP ∧
      (below .s true).homeOf .mstatusSPELP ≠ (below .s true).homeOf .sstatusSPELP) ∧
    (FieldPresent (below .s true).cfg ((below .s true).homeOf .sstatusSPELP) ∧
      AccessGranted (below .s true) .sstatusSPELP) ∧
    (below .s true).softwareWrite .vsstatusSPELP true = none :=
  ⟨⟨_, rfl⟩, ⟨_, rfl⟩, ⟨_, rfl, by decide, by decide⟩,
    ⟨⟨fun _ => rfl, fun _ => rfl, fun _ => rfl⟩, .inr (.inr ⟨rfl, rfl, rfl⟩)⟩, rfl⟩

/-- Parameters other than the defaults: RV32 without `HAS_C`, everything of `RESET(f)` set. -/
theorem witness_ResetHasInv :
    (Config.default.hasS = true → Config.default.hasU = true) ∧ (Config.default.hasH = true → Config.default.hasS = true) ∧
    Config.instrAddr { Config.default with xlen := .rv32, hasC := false } 0xFFFFFFFC := by decide

/-- The oracle names VS from VU, HS from VS, M from U, and a mode it may not name. -/
theorem witness_TrapTargetIsOpen :
    ({ below .u true with targets := [.vs] } : State).targetAllowed .vs ∧
    ({ below .s true with targets := [.s, .m] } : State).targetAllowed .s ∧
    ({ below .u false with targets := [.m] } : State).targetAllowed .m ∧
    ¬ ({ start 0 with targets := [.s] } : State).targetAllowed .s := by
  simp [State.targetAllowed, below, start, State.reset, State.resetWith, Config.default]

/-- A layout with `UL` at the top of an RV32 register, in an S-level CSR, and a read-only number. -/
theorem witness_LplAccessByParameter :
    Config.default.lplAccess = none ∧
    (let a : LplAccess := ⟨0x5C0, 0, 9, 24⟩
     let s : State := { below .s true with cfg := { Config.default with xlen := .rv32, lplAccess := some a } }
     a.llPos + 9 ≤ s.cfg.xlen.bits ∧ a.mlPos + 8 ≤ s.cfg.xlen.bits ∧ a.ulPos + 8 ≤ s.cfg.xlen.bits ∧
       (a.llPos + 9 ≤ a.mlPos ∨ a.mlPos + 8 ≤ a.llPos) ∧ (a.llPos + 9 ≤ a.ulPos ∨ a.ulPos + 8 ≤ a.llPos) ∧
       (a.mlPos + 8 ≤ a.ulPos ∨ a.ulPos + 8 ≤ a.mlPos) ∧
       a.csr.toNat / 256 % 4 ≤ privilegeOf s.priv s.virt ∧ a.csr.toNat / 1024 ≠ 3 ∧
       ∃ v, s.softwareReadLpl a.csr = some v) ∧
    (0xDC0#12).toNat / 1024 = 3 :=
  ⟨rfl, ⟨by decide, by decide, by decide, by decide, by decide, by decide, by decide, by decide, _, rfl⟩, by decide⟩

theorem witness_EnableSeenByNextStep :
    let s := withWord { inactive 0x2000 with elp := .lpExpected } 0x00100593
    s.priv = .m ∧ s.elp = .lpExpected ∧ (∃ t, s.softwareWrite .mseccfgMFCFIE true = some t) ∧
    (∃ t, s.softwareWrite .mseccfgMFCFIE false = some t) ∧ s.input.irq = none ∧ s.input.fetchFault = none ∧
    s.fetch = some (.word 0x00100593) ∧ decode s.cfg (.word 0x00100593) = .instr (.addi 11 0 1) ∧
    ∀ flpl, Instr.addi 11 0 1 ≠ .lpcll flpl :=
  ⟨rfl, rfl, ⟨_, rfl⟩, ⟨_, rfl⟩, rfl, rfl, by decide, by decide, by intro f h; cases h⟩

end Sys2Proof.Tests
end

section
/-! PROOFS. The oracle `TRAP_TARGET`: what one answer decides about a trap. -/

namespace Sys2Proof.Machine

open Sys2Proof

/-- The model's test of an answer is the condition the obligations state. -/
theorem State.mayTarget_iff (s : State) (x : TrapMode) : s.mayTarget x = true ↔ s.targetAllowed x := by
  cases x with
  | m => simp [State.mayTarget, State.targetAllowed]
  | s => simp [State.mayTarget, State.targetAllowed, and_comm]
  | vs => simp [State.mayTarget, State.targetAllowed, and_comm, and_left_comm, and_assoc]

theorem State.trapTarget_of_answer {s : State} {x : TrapMode} {rest : List TrapMode} (c : Cause)
    (h : s.targets = x :: rest) : s.trapTarget c = if s.mayTarget x then x else s.delegatedTarget c := by
  rw [State.trapTarget, h]

theorem State.takeTrap_of_allowed {s : State} {x : TrapMode} {rest : List TrapMode} (c : Cause)
    (h : s.targets = x :: rest) (hx : s.targetAllowed x) : s.takeTrap c = s.trapEntry x c := by
  rw [State.takeTrap, State.trapTarget_of_answer c h, if_pos ((s.mayTarget_iff x).mpr hx)]

theorem State.takeTrap_of_not_allowed {s : State} {x : TrapMode} {rest : List TrapMode} (c : Cause)
    (h : s.targets = x :: rest) (hx : ¬ s.targetAllowed x) :
    s.takeTrap c = s.trapEntry (s.delegatedTarget c) c := by
  rw [State.takeTrap, State.trapTarget_of_answer c h, if_neg (mt (s.mayTarget_iff x).mp hx)]

/-- Settles O55: an allowed answer is the target, the delegation registers decide otherwise, and the answer is used up. -/
theorem trapTargetIsOpen : Obligations.TrapTargetIsOpen := by
  intro s c x rest h
  have used : (s.takeTrap c).targets = rest := by rw [(s.takeTrap_uses c).1, h, List.tail_cons]
  exact ⟨State.takeTrap_of_allowed c h, State.takeTrap_of_not_allowed c h, used⟩

end Sys2Proof.Machine
end

section
/-! PROOFS. Software access to `lpl` under `LPL_ACCESS`. -/

namespace Sys2Proof.Machine

open Sys2Proof

/-! What the number of a CSR says. -/

theorem State.mayUseCsr_iff (s : State) (csr : BitVec 12) :
    s.mayUseCsr csr = true ↔ csr.toNat / 256 % 4 ≤ privilegeOf s.priv s.virt := by
  rw [State.mayUseCsr, decide_eq_true_eq, BitVec.extractLsb'_toNat, Nat.shiftRight_eq_div_pow]

theorem csrReadOnly_iff (csr : BitVec 12) : csrReadOnly csr = true ↔ csr.toNat / 1024 = 3 := by
  have top : csr.toNat / 1024 < 4 := by omega
  rw [csrReadOnly, beq_iff_eq, ← BitVec.toNat_inj, BitVec.extractLsb'_toNat, Nat.shiftRight_eq_div_pow]
  exact iff_of_eq (congrArg (· = 3) (Nat.mod_eq_of_lt top))

/-! The layout. -/

theorem LplAccess.usable_iff (x : Xlen) (a : LplAccess) :
    LplAccess.usable x a = true ↔
      a.llPos + 9 ≤ x.bits ∧ a.mlPos + 8 ≤ x.bits ∧ a.ulPos + 8 ≤ x.bits ∧
      (a.llPos + 9 ≤ a.mlPos ∨ a.mlPos + 8 ≤ a.llPos) ∧ (a.llPos + 9 ≤ a.ulPos ∨ a.ulPos + 8 ≤ a.llPos) ∧
      (a.mlPos + 8 ≤ a.ulPos ∨ a.ulPos + 8 ≤ a.mlPos) := by
  simp [LplAccess.usable, fieldsApart, and_assoc]

/-- A field placed below bit `m` leaves a value of `m` bits. -/
theorem placed_lt {n m : Nat} (v : BitVec n) (p : Nat) (h : p + n ≤ m) :
    (v.setWidth 64 <<< p).toNat < 2 ^ m := by
  rw [BitVec.toNat_shiftLeft, BitVec.toNat_setWidth, Nat.shiftLeft_eq]
  calc v.toNat % 2 ^ 64 * 2 ^ p % 2 ^ 64
      ≤ v.toNat % 2 ^ 64 * 2 ^ p := Nat.mod_le _ _
    _ ≤ v.toNat * 2 ^ p := Nat.mul_le_mul_right _ (Nat.mod_le _ _)
    _ < 2 ^ n * 2 ^ p := Nat.mul_lt_mul_of_pos_right v.isLt (Nat.two_pow_pos p)
    _ = 2 ^ (p + n) := by rw [Nat.add_comm, Nat.pow_add]
    _ ≤ 2 ^ m := Nat.pow_le_pow_right (by decide) h

/-- What `lpl` reads as under a usable layout fits `XLEN` bits. -/
theorem LplAccess.image_inWidth {cfg : Config} {a : LplAccess} (l : Lpl)
    (h : LplAccess.usable cfg.xlen a = true) : Config.inWidth cfg (LplAccess.image a l) := by
  obtain ⟨hll, hml, hul, -⟩ := (LplAccess.usable_iff cfg.xlen a).mp h
  rw [Config.inWidth, LplAccess.image, BitVec.toNat_or, BitVec.toNat_or]
  exact Nat.or_lt_two_pow (Nat.or_lt_two_pow (placed_lt _ _ hll) (placed_lt _ _ hml)) (placed_lt _ _ hul)

theorem Config.lplCsr_none {cfg : Config} (h : cfg.lplAccess = none) : Config.lplCsr cfg = none := by
  rw [Config.lplCsr, h, Option.filter_none]

theorem Config.lplCsr_some {cfg : Config} {a : LplAccess} (h : cfg.lplAccess = some a)
    (hu : LplAccess.usable cfg.xlen a = true) : Config.lplCsr cfg = some a := by
  rw [Config.lplCsr, h, Option.filter_some, if_pos hu]

/-! The accesses. -/

theorem State.softwareReadLpl_none {s : State} (h : Config.lplCsr s.cfg = none) (csr : BitVec 12) :
    s.softwareReadLpl csr = none := by
  rw [State.softwareReadLpl, h]

theorem State.softwareWriteLpl_none {s : State} (h : Config.lplCsr s.cfg = none) (csr : BitVec 12) (w : Word) :
    s.softwareWriteLpl csr w = none := by
  rw [State.softwareWriteLpl, h]

theorem State.softwareReadLpl_eq_some {s : State} {a : LplAccess} (h : Config.lplCsr s.cfg = some a) {v : Word} :
    s.softwareReadLpl a.csr = some v ↔ s.mayUseCsr a.csr = true ∧ LplAccess.image a s.lpl = v := by
  simp [State.softwareReadLpl, h]

theorem State.softwareWriteLpl_readOnly {s : State} {a : LplAccess} (h : Config.lplCsr s.cfg = some a)
    (hro : csrReadOnly a.csr = true) (w : Word) : s.softwareWriteLpl a.csr w = none := by
  simp [State.softwareWriteLpl, h, hro]

theorem State.softwareWriteLpl_writable {s : State} {a : LplAccess} (h : Config.lplCsr s.cfg = some a)
    (hm : s.mayUseCsr a.csr = true) (hw : csrReadOnly a.csr = false) (w : Word) :
    s.softwareWriteLpl a.csr w = some (s.setLpl (LplAccess.fields a w)) := by
  simp [State.softwareWriteLpl, h, hm, hw]

/-- Writing what was read from a state of the same parameters gives `lpl` the content read. -/
theorem State.softwareWriteLpl_restores {s u : State} {a : LplAccess} {v : Word}
    (h : Config.lplCsr s.cfg = some a) (hu : LplAccess.usable s.cfg.xlen a = true)
    (hm : s.mayUseCsr a.csr = true) (hw : csrReadOnly a.csr = false) (hcfg : u.cfg = s.cfg)
    (hv : u.softwareReadLpl a.csr = some v) : s.softwareWriteLpl a.csr v = some (s.setLpl u.lpl) := by
  obtain ⟨-, rfl⟩ := (State.softwareReadLpl_eq_some (hcfg ▸ h)).mp hv
  rw [State.softwareWriteLpl_writable h hm hw, LplAccess.fields_image s.cfg.xlen a u.lpl hu]

/-- Settles O57: with a usable layout the read is the image of `lpl` and the write sets its fields, each undoing the other. -/
theorem lplAccessByParameter : Obligations.LplAccessByParameter := by
  constructor
  · intro s csr w hnone
    have h := Config.lplCsr_none hnone
    exact ⟨State.softwareReadLpl_none h csr, State.softwareWriteLpl_none h csr w⟩
  · intro s a hsome hll hml hul hlm hlu hmu hpriv
    have hu : LplAccess.usable s.cfg.xlen a = true :=
      (LplAccess.usable_iff s.cfg.xlen a).mpr ⟨hll, hml, hul, hlm, hlu, hmu⟩
    have h := Config.lplCsr_some hsome hu
    have hm : s.mayUseCsr a.csr = true := (s.mayUseCsr_iff a.csr).mpr hpriv
    have hf : LplAccess.fields a (LplAccess.image a s.lpl) = s.lpl := LplAccess.fields_image s.cfg.xlen a s.lpl hu
    refine ⟨⟨LplAccess.image a s.lpl, (State.softwareReadLpl_eq_some h).mpr ⟨hm, rfl⟩,
      LplAccess.image_inWidth s.lpl hu, congrArg Lpl.ll hf, congrArg Lpl.ml hf, congrArg Lpl.ul hf⟩, ?_, ?_⟩
    · exact fun hro => State.softwareWriteLpl_readOnly h ((csrReadOnly_iff a.csr).mpr hro)
    · intro hrw
      have hw : csrReadOnly a.csr = false := Bool.eq_false_iff.mpr (mt (csrReadOnly_iff a.csr).mp hrw)
      exact ⟨fun w => ⟨_, State.softwareWriteLpl_writable h hm hw w, rfl⟩,
        fun u v hcfg hv => State.softwareWriteLpl_restores h hu hm hw hcfg hv⟩

end Sys2Proof.Machine
end

section
/-! PROOFS. Where `RESET(f)` and `RESET_PC` stand in the reset state. -/

namespace Sys2Proof.Machine

open Sys2Proof

/-! `resetWith`, one lemma per field that takes a parameter. -/

section

variable (cfg : Config) (rv : ResetValues) (resetPc : Word)

@[simp] theorem State.resetWith_cfg : (State.resetWith cfg rv resetPc).cfg = cfg := rfl
@[simp] theorem State.resetWith_pc : (State.resetWith cfg rv resetPc).pc = resetPc := rfl
@[simp] theorem State.resetWith_elp : (State.resetWith cfg rv resetPc).elp = rv.elp := rfl
@[simp] theorem State.resetWith_lpl : (State.resetWith cfg rv resetPc).lpl = rv.lpl := rfl
@[simp] theorem State.resetWith_mseccfg : (State.resetWith cfg rv resetPc).mseccfg = ⟨rv.mseccfgMFCFIE⟩ := rfl
@[simp] theorem State.resetWith_menvcfg : (State.resetWith cfg rv resetPc).menvcfg = ⟨rv.menvcfgCFIE, rv.menvcfgSFCFIE⟩ := rfl
@[simp] theorem State.resetWith_henvcfg : (State.resetWith cfg rv resetPc).henvcfg = ⟨rv.henvcfgCFIE, rv.henvcfgSFCFIE⟩ := rfl
@[simp] theorem State.resetWith_mstatus_ufcfie : (State.resetWith cfg rv resetPc).mstatus.ufcfie = rv.mstatusUFCFIE := rfl
@[simp] theorem State.resetWith_mstatus_mpelp : (State.resetWith cfg rv resetPc).mstatus.mpelp = rv.mstatusMPELP := rfl
@[simp] theorem State.resetWith_mstatus_spelp : (State.resetWith cfg rv resetPc).mstatus.spelp = rv.mstatusSPELP := rfl
@[simp] theorem State.resetWith_vsstatus_ufcfie : (State.resetWith cfg rv resetPc).vsstatus.ufcfie = rv.vsstatusUFCFIE := rfl
@[simp] theorem State.resetWith_vsstatus_spelp : (State.resetWith cfg rv resetPc).vsstatus.spelp = rv.vsstatusSPELP := rfl

end

/-- Settles O56: reset copies each parameter into the field of its name. -/
theorem resetValuesAreParameters : Obligations.ResetValuesAreParameters := by
  intro cfg rv resetPc
  refine ⟨State.resetWith cfg rv resetPc, rfl, ?_⟩
  simp

end Sys2Proof.Machine
end

section
/-! PROOFS. What executing one instruction can do, said once, and from it what one step can do. -/

namespace Sys2Proof

/-! What the decoder answers. -/

/-- The decoder answers well-formed instructions only. -/
theorem decode_wf {cfg : Config} {w : InstWord} {i : Instr} (h : decode cfg w = .instr i) : Instr.wf cfg i = true := by
  cases w with
  | half p =>
    obtain ⟨hc, ⟨-, hr, rfl⟩ | ⟨-, hr, rfl⟩ | ⟨-, hs, rfl⟩⟩ := decode16_cases h
    · exact Bool.and_eq_true_iff.mpr ⟨hc, bne_iff_ne.mpr hr⟩
    · exact Bool.and_eq_true_iff.mpr ⟨hc, bne_iff_ne.mpr hr⟩
    · have bit5 : (p.extractLsb' 12 1 ++ p.extractLsb' 2 5).getLsbD 5 = p.getLsbD 12 := by
        rw [BitVec.getLsbD_append]; simp
      cases hx : cfg.xlen
      · simpa [Instr.wf, hc, hx, bit5, -BitVec.getLsbD_eq_getElem] using hs
      · simp [Instr.wf, hc, hx]
  | word w =>
    rcases decode32_cases h with ⟨-, rfl⟩ | ⟨-, rfl⟩ | ⟨-, rfl⟩ | ⟨-, rfl⟩ | ⟨-, rfl⟩ | ⟨-, rfl⟩ | ⟨-, rfl⟩ | ⟨-, rfl⟩ |
      ⟨-, rfl⟩ | ⟨-, rfl⟩ | ⟨-, hf⟩
    iterate 10 rfl
    obtain ⟨-, hr, rfl⟩ | ⟨-, hr, rfl⟩ | ⟨e, he, -, rfl⟩ := decodeFallback32_cases hf
    · exact bne_iff_ne.mpr hr
    · exact bne_iff_ne.mpr hr
    · simp [Instr.wf, he]

/-- A well-formed instruction is 32 bits long, or 16 on a hart with compressed instructions (R74). -/
theorem Instr.bytes_of_wf {cfg : Config} {i : Instr} (h : Instr.wf cfg i = true) :
    i.bytes = 4 ∨ (i.bytes = 2 ∧ cfg.hasC = true) := by
  cases i with
  | cJr | cJalr | cSlli => exact .inr ⟨rfl, (Bool.and_eq_true_iff.mp h).1⟩
  | _ => exact .inl rfl

end Sys2Proof

namespace Sys2Proof.Machine

open Sys2Proof

/-! Addresses and values. -/

theorem Config.instrAddr_iff (cfg : Config) (w : Word) :
    Config.instrAddr cfg w ↔
      w.toNat < 2 ^ cfg.xlen.bits ∧ w.toNat % 2 = 0 ∧ (cfg.hasC = false → w.toNat % 4 = 0) := by
  have bit0 : w.getLsbD 0 = false ↔ w.toNat % 2 = 0 := by
    rw [BitVec.getLsbD, Nat.testBit_eq_decide_div_mod_eq]; simp
  have bit1 : w.getLsbD 1 = false ↔ w.toNat / 2 % 2 = 0 := by
    rw [BitVec.getLsbD, Nat.testBit_eq_decide_div_mod_eq]; simp
  rw [Config.instrAddr, Config.inWidth, bit0, bit1]
  refine and_congr_right fun _ => and_congr_right fun h0 => forall_congr' fun _ => ?_
  omega

theorem Config.inWidth_wrap (cfg : Config) (v : Word) : Config.inWidth cfg (wrap cfg.xlen v) := wrap_lt _ _

theorem Config.inWidth_pcPlus (cfg : Config) (a : Word) (n : Nat) : Config.inWidth cfg (pcPlus cfg.xlen a n) :=
  pcPlus_lt _ _ _

/-- Moving on by an instruction's length, or by a multiple of it, leads to an instruction address (R11, R43). -/
theorem Config.instrAddr_pcPlus {cfg : Config} {a : Word} {n : Nat} (h : Config.instrAddr cfg a) (heven : n % 2 = 0)
    (hlen : n % 4 = 0 ∨ cfg.hasC = true) : Config.instrAddr cfg (pcPlus cfg.xlen a n) := by
  rw [Config.instrAddr_iff] at h ⊢
  obtain ⟨-, h0, h1⟩ := h
  refine ⟨pcPlus_lt _ _ _, ?_, fun hc => ?_⟩
  · rw [pcPlus_toNat]
    cases cfg.xlen <;> simp only [Xlen.bits] <;> omega
  · have h4 : n % 4 = 0 := hlen.resolve_right (by simp [hc])
    have := h1 hc
    rw [pcPlus_toNat]
    cases cfg.xlen <;> simp only [Xlen.bits] <;> omega

theorem clearBit0_le (a : Word) : (clearBit0 a).toNat ≤ a.toNat := by
  rw [clearBit0_toNat]; exact Nat.sub_le _ _

theorem clearBit0_getLsbD_zero (a : Word) : (clearBit0 a).getLsbD 0 = false := by
  simp [clearBit0]

/-- A target with bit 0 cleared is an instruction address where compressed instructions exist (R43). -/
theorem Config.instrAddr_clearBit0 {cfg : Config} {a : Word} (ha : Config.inWidth cfg a)
    (h1 : cfg.hasC = false → (clearBit0 a).getLsbD 1 = false) : Config.instrAddr cfg (clearBit0 a) :=
  ⟨Nat.lt_of_le_of_lt (clearBit0_le a) ha, clearBit0_getLsbD_zero a, h1⟩

/-! One instruction. -/

/-- What executing an instruction on `s` can lead to: a trap, a register write, a jump, a passed landing pad, a new label,
or a return from a trap. The lemma `exec_effect` ties it to `exec`. -/
inductive State.Effect (s : State) : Instr → State → Prop where
  | trap (i : Instr) (c : Cause) : s.Effect i (s.takeTrap c)
  | write (i : Instr) (rd : RegNum) (v : Word) (hv : Config.inWidth s.cfg v) :
      s.Effect i ((s.setReg rd v).advance i.bytes)
  | jump (i : Instr) (rd : RegNum) (target : Word)
      (htarget : (∀ r, Config.inWidth s.cfg (s.reg r)) → Instr.wf s.cfg i = true → Config.instrAddr s.cfg target) :
      s.Effect i (((s.setPc target).setReg rd (pcPlus s.cfg.xlen s.pc i.bytes)).expectPad i)
  | pad (flpl : BitVec 10) (hact : s.xfcfie = true) :
      s.Effect (.lpcll flpl) ((s.setElp .noLpExpected).advance 4)
  | setLower (v : BitVec 9) (hact : s.xfcfie = true) :
      s.Effect (.lpsll v) ((s.setLpl ⟨v, 0, 0⟩).advance 4)
  | setMiddle (v : BitVec 8) (hact : s.xfcfie = true) :
      s.Effect (.lpsml v) ((s.setLpl { s.lpl with ml := v }).advance 4)
  | setUpper (v : BitVec 8) (hact : s.xfcfie = true) :
      s.Effect (.lpsul v) ((s.setLpl { s.lpl with ul := v }).advance 4)
  | mret (hpriv : s.priv = .m) : s.Effect .mret s.returnM
  | sret (hS : s.cfg.hasS = true) (hpriv : s.priv ≠ .u) (hvirt : s.virt = false) : s.Effect .sret s.returnS
  | sretVS (hS : s.cfg.hasS = true) (hpriv : s.priv ≠ .u) (hvirt : s.virt = true) : s.Effect .sret s.returnVS

/-- The Zimop fallback is a write of 0 (R160 to R162). -/
theorem State.Effect.zimop (s : State) (i : Instr) (rd : RegNum) (h4 : i.bytes = 4) : s.Effect i (s.zimopFallback rd) := by
  have h := State.Effect.write (s := s) i rd 0 (Nat.two_pow_pos _)
  rwa [h4] at h

/-- Moving on without any other effect is a write to `x0`. -/
theorem State.Effect.skip (s : State) (i : Instr) (h4 : i.bytes = 4) : s.Effect i (s.advance 4) :=
  State.Effect.zimop s i 0 h4

theorem checkLabel_effect (s : State) (i : Instr) (h4 : i.bytes = 4) (field imm : BitVec 8) :
    s.Effect i (s.checkLabel field imm) := by
  unfold State.checkLabel
  split
  · split
    · exact .trap i _
    · exact .skip s i h4
  · exact .zimop s i 0 h4

/-- A label set is a new content of `lpl` while active, and the Zimop fallback otherwise (R140 to R142, R162). -/
theorem setLabel_effect (s : State) (i : Instr) (h4 : i.bytes = 4) (l : Lpl)
    (hset : s.xfcfie = true → s.Effect i ((s.setLpl l).advance 4)) : s.Effect i (s.setLabel l) := by
  unfold State.setLabel
  split
  · exact hset ‹_›
  · exact .zimop s i 0 h4

theorem execLpcll_effect {s t : State} {flpl : BitVec 10} (h : execLpcll flpl s = .next t) :
    s.Effect (.lpcll flpl) t := by
  unfold execLpcll at h
  split at h
  · split at h
    · cases h; exact .trap _ _
    · split at h
      · cases h; exact .trap _ _
      · cases h; exact .pad flpl ‹_›
  · cases h; exact .zimop s _ 0 rfl

theorem execLpcnl_effect {s t : State} {nlpl : BitVec 10} (h : execLpcnl nlpl s = .next t) :
    s.Effect (.lpcnl nlpl) t := by
  unfold execLpcnl at h
  split at h
  · split at h
    · cases h; exact .trap _ _
    · cases h; exact .skip s _ rfl
  · cases h; exact .zimop s _ 0 rfl

theorem execJalr_effect {s t : State} {rd rs1 : RegNum} {imm12 : BitVec 12} (h : execJalr rd rs1 imm12 s = .next t) :
    s.Effect (.jalr rd rs1 imm12) t := by
  unfold execJalr at h
  split at h
  · cases h; exact .trap _ _
  · rename_i haligned
    cases h
    refine .jump (.jalr rd rs1 imm12) rd _ fun _ _ => ?_
    exact Config.instrAddr_clearBit0 (Config.inWidth_wrap s.cfg _) fun hc =>
      Bool.eq_false_of_not_eq_true fun h1 => haligned ⟨hc, h1⟩

/-- The target of `C.JR` and `C.JALR` on a hart that has them. -/
theorem compressedTarget_instrAddr {s : State} {i : Instr} (rs1 : RegNum) (h2 : i.bytes = 2)
    (hreg : ∀ r, Config.inWidth s.cfg (s.reg r)) (hwf : Instr.wf s.cfg i = true) :
    Config.instrAddr s.cfg (clearBit0 (s.reg rs1)) :=
  Config.instrAddr_clearBit0 (hreg rs1) fun hc => by
    obtain h4 | ⟨-, hC⟩ := Instr.bytes_of_wf hwf
    · omega
    · simp [hC] at hc

theorem execMret_effect {s t : State} (h : execMret s = .next t) : s.Effect .mret t := by
  unfold execMret at h
  split at h
  · cases h; exact .mret ‹_›
  · cases h; exact .trap _ _

theorem execSret_effect {s t : State} (h : execSret s = .next t) : s.Effect .sret t := by
  unfold execSret at h
  split at h
  · cases h; exact .trap _ _
  rename_i hS
  have hS : s.cfg.hasS = true := Bool.eq_true_of_not_eq_false hS
  split at h
  · split at h
    · cases h; exact .trap _ _
    · rename_i hvirt hok
      cases h; exact .sretVS hS (fun hu => hok (.inl hu)) hvirt
  · split at h
    · cases h; exact .trap _ _
    · rename_i hvirt hok
      cases h; exact .sret hS (fun hu => hok (.inl hu)) (Bool.eq_false_of_not_eq_true hvirt)

/-- What executing an instruction can do. -/
theorem exec_effect {s t : State} {i : Instr} (h : exec i s = .next t) : s.Effect i t := by
  cases i with
  | lpcll flpl => exact execLpcll_effect h
  | lpcnl nlpl => exact execLpcnl_effect h
  | lpcml mlpl => cases h; exact checkLabel_effect s _ rfl _ _
  | lpcul ulpl => cases h; exact checkLabel_effect s _ rfl _ _
  | lpsll llpl => cases h; exact setLabel_effect s _ rfl _ (.setLower llpl)
  | lpsml mlpl => cases h; exact setLabel_effect s _ rfl _ (.setMiddle mlpl)
  | lpsul ulpl => cases h; exact setLabel_effect s _ rfl _ (.setUpper ulpl)
  | mopRr0 rd ignored => cases h; exact .zimop s _ rd rfl
  | mopRr1 rd ignored => cases h; exact .zimop s _ rd rfl
  | lui rd imm20 => cases h; exact .write _ rd _ (Config.inWidth_wrap s.cfg _)
  | addi rd rs1 imm12 => cases h; exact .write _ rd _ (Config.inWidth_wrap s.cfg _)
  | jalr rd rs1 imm12 => exact execJalr_effect h
  | cJr rs1 => cases h; exact .jump _ 0 _ (compressedTarget_instrAddr rs1 rfl)
  | cJalr rs1 => cases h; exact .jump _ 1 _ (compressedTarget_instrAddr rs1 rfl)
  | cSlli rd shamt => cases h; exact .write _ rd _ (Config.inWidth_wrap s.cfg _)
  | mret => exact execMret_effect h
  | sret => exact execSret_effect h

/-! One step. -/

/-- A step takes a trap, or it runs a well-formed instruction with an effect of that instruction. -/
theorem step_effect {s t : State} (h : step s = .next t) :
    (∃ c, t = s.popInput.takeTrap c) ∨ ∃ i, s.runs i ∧ Instr.wf s.cfg i = true ∧ s.popInput.Effect i t := by
  obtain ⟨code, -, ht⟩ | ⟨-, f, -, ht⟩ | ⟨-, -, w, -, -, ht⟩ | ⟨hirq, hff, w, i, hw, hd, -, hexec⟩ := step_cases h
  · exact .inl ⟨_, ht⟩
  · exact .inl ⟨_, ht⟩
  · exact .inl ⟨_, ht⟩
  · exact .inr ⟨i, ⟨hirq, hff, w, hw, hd⟩, decode_wf hd, exec_effect hexec⟩

end Sys2Proof.Machine
end

section
/-! PROOFS. The invariant of the hart: every operation keeps it, so every step does, and reset has it. -/

namespace Sys2Proof.Machine

open Sys2Proof

/-! Modes. -/

/-- A mode that exists with `V = 1` exists with `V = 0`: what `MPP` may record. -/
theorem modeExists_unvirt {cfg : Config} {p : Priv} {v : Bool} (h : modeExists cfg p v) : modeExists cfg p false := by
  cases p with
  | m => rfl
  | s | u => exact ⟨h.1, nofun⟩

/-- `V = 1` below M needs the hypervisor extension. -/
theorem modeExists_hasH {cfg : Config} {p : Priv} (h : modeExists cfg p true) : cfg.hasH = true := by
  cases p with
  | m => exact nomatch h
  | s | u => exact h.2 rfl

/-- A mode below M stays one that exists when `V` is set only with the hypervisor extension. -/
theorem modeExists_virt {cfg : Config} {p : Priv} {v : Bool} (h : modeExists cfg p false) (hm : p = .m → v = false)
    (hv : v = true → cfg.hasH = true) : modeExists cfg p v := by
  cases p with
  | m => exact hm rfl
  | s | u => exact ⟨h.1, hv⟩

theorem modeExists_leastPriv (cfg : Config) : modeExists cfg (leastPriv cfg) false := by
  cases hU : cfg.hasU <;> cases hS : cfg.hasS <;> simp [leastPriv, modeExists, hU, hS]

theorem modeExists_toPriv {cfg : Config} (hS : cfg.hasS = true) (hU : cfg.hasU = true) (p : Spp) :
    modeExists cfg p.toPriv false := by
  cases p with
  | u => exact ⟨hU, nofun⟩
  | s => exact ⟨hS, nofun⟩

theorem Spp.toPriv_ne_m (p : Spp) : p.toPriv ≠ .m := by
  cases p <;> decide

/-! Trap registers. -/

/-- What a trap records is a saved pc that is an instruction address and a value of `XLEN` bits. -/
theorem TrapCsrs.ok_record {s : State} {x : TrapCsrs} (hx : x.ok s.cfg) (hpc : Config.instrAddr s.cfg s.pc) (c : Cause) :
    (x.record s c).ok s.cfg where
  epc  := hpc
  tval := Config.inWidth_wrap s.cfg _
  tvec := hx.tvec

/-- A trap handler starts at an instruction address, vectored or not. -/
theorem Tvec.instrAddr_entry {cfg : Config} {x : Tvec} (hx : Config.instrAddr cfg x.base) (c : Cause) :
    Config.instrAddr cfg (x.entry cfg.xlen c) := by
  unfold Tvec.entry
  split
  · exact Config.instrAddr_pcPlus hx (by omega) (.inl (by omega))
  · exact hx

/-! The operations. -/

namespace State.Inv

variable {s : State}

theorem popInput (h : s.Inv) : s.popInput.Inv := { h with }

theorem setElp (h : s.Inv) (e : Elp) : (s.setElp e).Inv := { h with }

theorem setLpl (h : s.Inv) (l : Lpl) : (s.setLpl l).Inv := { h with }

theorem expectPad (h : s.Inv) (i : Instr) : (s.expectPad i).Inv := by
  unfold State.expectPad
  split
  · exact h.setElp _
  · exact h

theorem setPc (h : s.Inv) {target : Word} (ht : Config.instrAddr s.cfg target) : (s.setPc target).Inv :=
  { h with pc := ht }

theorem advance (h : s.Inv) {i : Instr} (hwf : Instr.wf s.cfg i = true) : (s.advance i.bytes).Inv := by
  obtain h4 | ⟨h2, hC⟩ := Instr.bytes_of_wf hwf
  · exact h.setPc (Config.instrAddr_pcPlus h.pc (by omega) (.inl (by omega)))
  · exact h.setPc (Config.instrAddr_pcPlus h.pc (by omega) (.inr hC))

theorem setReg (h : s.Inv) (rd : RegNum) {v : Word} (hv : Config.inWidth s.cfg v) : (s.setReg rd v).Inv := by
  by_cases hrd : rd = 0
  · rw [hrd, State.setReg_zero]; exact h
  have hne : rd.toNat ≠ 0 := fun e => hrd (BitVec.eq_of_toNat_eq e)
  have hreg : ∀ r, Config.inWidth s.cfg ((s.setReg rd v).reg r) := by
    intro r
    by_cases hr : r = rd
    · rw [hr, State.reg_setReg_same s rd v hrd]; exact hv
    · rw [State.reg_setReg_other s rd r v hr]; exact h.regs r
  rw [State.setReg, if_neg hrd] at hreg ⊢
  have hx0 : (s.regs.set rd.toNat v rd.isLt)[0] = 0 := (Vector.getElem_set_ne _ _ hne).trans h.x0
  exact { h with x0 := hx0, regs := hreg }

theorem enterM (h : s.Inv) (c : Cause) : (s.enterM c).Inv :=
  { h with
    pc    := Tvec.instrAddr_entry h.mtrap.tvec c
    mtrap := TrapCsrs.ok_record h.mtrap h.pc c
    mode  := rfl
    mpp   := modeExists_unvirt h.mode }

theorem enterS (h : s.Inv) (hS : s.cfg.hasS = true) (c : Cause) : (s.enterS c).Inv :=
  { h with
    pc    := Tvec.instrAddr_entry h.strap.tvec c
    strap := TrapCsrs.ok_record h.strap h.pc c
    mode  := ⟨hS, nofun⟩ }

theorem enterVS (h : s.Inv) (hS : s.cfg.hasS = true) (hvirt : s.virt = true) (c : Cause) : (s.enterVS c).Inv :=
  { h with
    pc     := Tvec.instrAddr_entry h.vstrap.tvec c
    vstrap := TrapCsrs.ok_record h.vstrap h.pc c
    mode   := ⟨hS, fun _ => modeExists_hasH (hvirt ▸ h.mode)⟩ }

theorem takeTrap (h : s.Inv) (c : Cause) : (s.takeTrap c).Inv := by
  rcases s.takeTrap_cases c with e | ⟨e, -, hS⟩ | ⟨e, -, hS, hvirt⟩ <;> rw [e]
  · exact h.enterM c
  · exact h.enterS hS c
  · exact h.enterVS hS hvirt c

theorem returnM (h : s.Inv) : s.returnM.Inv := by
  have hvirt : s.returnM.virt = (decide (s.mstatus.mpp ≠ .m) && s.cfg.hasH && s.mstatus.mpv) := rfl
  have hmode : modeExists s.cfg s.mstatus.mpp s.returnM.virt :=
    modeExists_virt h.mpp (fun hm => by simp [hvirt, hm]) fun hv => by
      simp only [hvirt, Bool.and_eq_true] at hv
      exact hv.1.2
  exact { h with pc := h.mtrap.epc, mode := hmode, mpp := modeExists_leastPriv s.cfg }

theorem returnS (h : s.Inv) (hS : s.cfg.hasS = true) : s.returnS.Inv :=
  { h with
    pc   := h.strap.epc
    mode := modeExists_virt (modeExists_toPriv hS (h.needsU hS) _) (fun hm => absurd hm (Spp.toPriv_ne_m _))
      fun hv => (Bool.and_eq_true_iff.mp hv).1 }

theorem returnVS (h : s.Inv) (hS : s.cfg.hasS = true) (hvirt : s.virt = true) : s.returnVS.Inv :=
  { h with
    pc   := h.vstrap.epc
    mode := modeExists_virt (modeExists_toPriv hS (h.needsU hS) _) (fun hm => absurd hm (Spp.toPriv_ne_m _))
      fun _ => modeExists_hasH (hvirt ▸ h.mode) }

/-- Every effect of a well-formed instruction keeps the invariant. -/
theorem effect {t : State} {i : Instr} (h : s.Inv) (hwf : Instr.wf s.cfg i = true) (he : s.Effect i t) : t.Inv := by
  cases he with
  | trap _ c => exact h.takeTrap c
  | write _ rd v hv => exact (h.setReg rd hv).advance (by simpa using hwf)
  | jump _ rd target htarget =>
    have hjump := h.setPc (htarget h.regs hwf)
    exact (hjump.setReg rd (Config.inWidth_pcPlus s.cfg _ _)).expectPad i
  | pad flpl => exact (h.setElp .noLpExpected).advance hwf
  | setLower v => exact (h.setLpl ⟨v, 0, 0⟩).advance hwf
  | setMiddle v => exact (h.setLpl { s.lpl with ml := v }).advance hwf
  | setUpper v => exact (h.setLpl { s.lpl with ul := v }).advance hwf
  | mret => exact h.returnM
  | sret hS => exact h.returnS hS
  | sretVS hS _ hvirt => exact h.returnVS hS hvirt

end State.Inv

/-- Settles O47: a trap keeps the invariant, and so does every effect of a decoded instruction. -/
theorem stepKeepsInv : Obligations.StepKeepsInv := by
  intro s t h hstep
  obtain ⟨c, rfl⟩ | ⟨i, -, hwf, he⟩ := step_effect hstep
  · exact h.popInput.takeTrap c
  · exact h.popInput.effect hwf he

/-! Reset. -/

theorem Config.inWidth_zero (cfg : Config) : Config.inWidth cfg 0 := Nat.two_pow_pos _

theorem Config.instrAddr_zero (cfg : Config) : Config.instrAddr cfg 0 := ⟨Config.inWidth_zero cfg, rfl, fun _ => rfl⟩

theorem TrapCsrs.ok_reset (cfg : Config) : TrapCsrs.reset.ok cfg where
  epc  := Config.instrAddr_zero cfg
  tval := Config.inWidth_zero cfg
  tvec := Config.instrAddr_zero cfg

@[simp] theorem State.resetWith_reg (cfg : Config) (rv : ResetValues) (resetPc : Word) (r : RegNum) :
    (State.resetWith cfg rv resetPc).reg r = 0 := by
  simp [State.reg, State.resetWith]

/-- Reset of a hart whose modes nest, at an instruction address, has the invariant. -/
theorem State.Inv.resetWith {cfg : Config} (rv : ResetValues) {resetPc : Word} (hU : cfg.hasS = true → cfg.hasU = true)
    (hS : cfg.hasH = true → cfg.hasS = true) (hpc : Config.instrAddr cfg resetPc) :
    (State.resetWith cfg rv resetPc).Inv where
  needsU := hU
  needsS := hS
  memory := List.Pairwise.nil
  x0     := Vector.getElem_replicate _
  regs r := by rw [State.resetWith_reg]; exact Config.inWidth_zero cfg
  pc     := hpc
  mtrap  := TrapCsrs.ok_reset cfg
  strap  := TrapCsrs.ok_reset cfg
  vstrap := TrapCsrs.ok_reset cfg
  mode   := rfl
  mpp    := modeExists_leastPriv cfg

/-- Settles O48: the default reset is the case of the default configuration at address 0. -/
theorem resetHasInv : Obligations.ResetHasInv :=
  ⟨State.Inv.resetWith _ (fun _ => rfl) nofun (Config.instrAddr_zero _),
    fun _ rv _ hU hS hpc => State.Inv.resetWith rv hU hS hpc⟩

end Sys2Proof.Machine
end

section
/-! PROOFS. What a step may write: `ELP`, `lpl`, the mode, and what no step writes. -/

namespace Sys2Proof.Machine

open Sys2Proof

@[simp] theorem State.takeTrap_elp (s : State) (c : Cause) : (s.takeTrap c).elp = .noLpExpected :=
  (s.takeTrap_keeps c).1

@[simp] theorem State.takeTrap_lpl (s : State) (c : Cause) : (s.takeTrap c).lpl = s.lpl := by
  obtain ⟨-, -, h, -⟩ := s.takeTrap_keeps c
  exact h

/-- A completed jump sets `ELP` where CFI is active and the jump expects a landing pad, and leaves it otherwise (R91 to R93). -/
theorem State.expectPad_elp_cases (s : State) (i : Instr) :
    ((s.expectPad i).elp = .lpExpected ∧ s.xfcfie = true ∧ isLpExpected i = true) ∨ (s.expectPad i).elp = s.elp := by
  rw [State.expectPad_elp]
  split
  · rename_i h
    exact .inl ⟨rfl, Bool.and_eq_true_iff.mp h⟩
  · exact .inr rfl

/-- Settles O43: of the effects of an instruction, only these change `ELP`. -/
theorem elpWriters : Obligations.ElpWriters := by
  intro s t hstep hne
  obtain ⟨c, rfl⟩ | ⟨i, hrun, -, he⟩ := step_effect hstep
  · exact .inr (.inr (.inr (.inr ⟨s.popInput.takeTrap_elp c, c, rfl⟩)))
  cases he with
  | trap _ c => exact .inr (.inr (.inr (.inr ⟨s.popInput.takeTrap_elp c, c, rfl⟩)))
  | write _ rd v => exact absurd (by simp) hne
  | jump _ rd target =>
    obtain ⟨help, hact, hexp⟩ | hsame := State.expectPad_elp_cases
      ((s.popInput.setPc target).setReg rd (pcPlus s.popInput.cfg.xlen s.popInput.pc i.bytes)) i
    · exact .inl ⟨help, by simpa using hact, i, hrun, hexp⟩
    · exact absurd (hsame.trans (by simp)) hne
  | pad flpl hact => exact .inr (.inl ⟨rfl, hact, flpl, hrun⟩)
  | setLower | setMiddle | setUpper => exact absurd rfl hne
  | mret hpriv => exact .inr (.inr (.inl ⟨rfl, hpriv, hrun⟩))
  | sret _ _ hvirt =>
    have hvirt : s.virt = false := hvirt
    exact .inr (.inr (.inr (.inl ⟨by simp [hvirt], hrun⟩)))
  | sretVS _ _ hvirt =>
    have hvirt : s.virt = true := hvirt
    exact .inr (.inr (.inr (.inl ⟨by simp [hvirt], hrun⟩)))

/-- What a step does to `lpl`: nothing, or an active `lpsml` or `lpsul` sets its field. -/
theorem step_lpl {s t : State} (h : step s = .next t) :
    t.lpl = s.lpl ∨
    (∃ v, s.runs (.lpsml v) ∧ s.xfcfie = true ∧ t.lpl = { s.lpl with ml := v }) ∨
    (∃ v, s.runs (.lpsul v) ∧ s.xfcfie = true ∧ t.lpl = { s.lpl with ul := v }) := by
  obtain ⟨c, rfl⟩ | ⟨i, hrun, hwf, he⟩ := step_effect h
  · exact .inl (s.popInput.takeTrap_lpl c)
  cases he with
  | setLower => exact nomatch hwf
  | setMiddle v hact => exact .inr (.inl ⟨v, hrun, hact, rfl⟩)
  | setUpper v hact => exact .inr (.inr ⟨v, hrun, hact, rfl⟩)
  | trap | write | jump | pad | mret | sret | sretVS => exact .inl (by simp)

/-- Settles O44: read off the three ways a step treats `lpl`. -/
theorem lplWriters : Obligations.LplWriters := by
  intro s t hstep
  obtain h | ⟨v, hrun, hact, h⟩ | ⟨v, hrun, hact, h⟩ := step_lpl hstep <;> rw [h]
  · exact ⟨rfl, fun hne => absurd rfl hne, fun hne => absurd rfl hne⟩
  · exact ⟨rfl, fun _ => ⟨hact, v, hrun, rfl⟩, fun hne => absurd rfl hne⟩
  · exact ⟨rfl, fun hne => absurd rfl hne, fun _ => ⟨hact, v, hrun, rfl⟩⟩

/-- Settles O45: the other effects of an instruction leave `priv` and `V` alone. -/
theorem modeWriters : Obligations.ModeWriters := by
  intro s t hstep hne
  obtain ⟨c, rfl⟩ | ⟨i, hrun, -, he⟩ := step_effect hstep
  · exact .inr (.inr ⟨c, rfl⟩)
  cases he with
  | trap _ c => exact .inr (.inr ⟨c, rfl⟩)
  | mret hpriv => exact .inl ⟨hrun, hpriv⟩
  | sret | sretVS => exact .inr (.inl hrun)
  | write | jump | pad | setLower | setMiddle | setUpper => simp at hne

/-! What no step writes. -/

/-- The parts of the state that no step writes (R6, R15 to R21, R44, R49). -/
structure FixedPart where
  cfg     : Config
  mem     : Memory
  deleg   : Deleg
  mseccfg : Mseccfg
  menvcfg : Envcfg
  henvcfg : Envcfg
  ufcfie  : Bool
  vufcfie : Bool
  tsr     : Bool
  vtsr    : Bool
  mtvec   : Tvec
  stvec   : Tvec
  vstvec  : Tvec

/-- The part of a state that no step writes. -/
def State.fixedPart (s : State) : FixedPart where
  cfg     := s.cfg
  mem     := s.mem
  deleg   := s.deleg
  mseccfg := s.mseccfg
  menvcfg := s.menvcfg
  henvcfg := s.henvcfg
  ufcfie  := s.mstatus.ufcfie
  vufcfie := s.vsstatus.ufcfie
  tsr     := s.mstatus.tsr
  vtsr    := s.hstatus.vtsr
  mtvec   := s.mtrap.tvec
  stvec   := s.strap.tvec
  vstvec  := s.vstrap.tvec

@[simp] theorem State.popInput_fixedPart (s : State) : s.popInput.fixedPart = s.fixedPart := rfl
@[simp] theorem State.setPc_fixedPart (s : State) (a : Word) : (s.setPc a).fixedPart = s.fixedPart := rfl
@[simp] theorem State.advance_fixedPart (s : State) (n : Nat) : (s.advance n).fixedPart = s.fixedPart := rfl
@[simp] theorem State.setElp_fixedPart (s : State) (e : Elp) : (s.setElp e).fixedPart = s.fixedPart := rfl
@[simp] theorem State.setLpl_fixedPart (s : State) (l : Lpl) : (s.setLpl l).fixedPart = s.fixedPart := rfl
@[simp] theorem State.setReg_fixedPart (s : State) (r : RegNum) (v : Word) : (s.setReg r v).fixedPart = s.fixedPart := by
  unfold State.setReg; split <;> rfl
@[simp] theorem State.expectPad_fixedPart (s : State) (i : Instr) : (s.expectPad i).fixedPart = s.fixedPart := by
  unfold State.expectPad; split <;> rfl
@[simp] theorem State.takeTrap_fixedPart (s : State) (c : Cause) : (s.takeTrap c).fixedPart = s.fixedPart := by
  rcases s.takeTrap_cases c with e | ⟨e, -⟩ | ⟨e, -⟩ <;> rw [e] <;> rfl

theorem State.Effect.fixedPart {s t : State} {i : Instr} (h : s.Effect i t) : t.fixedPart = s.fixedPart := by
  cases h with
  | trap | write | jump | pad | setLower | setMiddle | setUpper => simp
  | mret | sret | sretVS => rfl

theorem step_fixedPart {s t : State} (h : step s = .next t) : t.fixedPart = s.fixedPart := by
  obtain ⟨c, rfl⟩ | ⟨i, -, -, he⟩ := step_effect h
  · simp
  · exact he.fixedPart

/-- Settles O46: each part named is one of the parts that no step writes. -/
theorem stepKeepsEnables : Obligations.StepKeepsEnables := by
  intro s t hstep
  have h := step_fixedPart hstep
  have hmem : t.mem = s.mem := congrArg FixedPart.mem h
  have henables : SameEnables s t :=
    { mfcfie   := congrArg FixedPart.mseccfg h
      menvcfg  := congrArg FixedPart.menvcfg h
      henvcfg  := congrArg FixedPart.henvcfg h
      ufcfie   := congrArg FixedPart.ufcfie h
      vsufcfie := congrArg FixedPart.vufcfie h }
  exact ⟨henables, fun a => congrArg (·.read a) hmem, congrArg FixedPart.cfg h, congrArg FixedPart.deleg h,
    congrArg FixedPart.mtvec h, congrArg FixedPart.stvec h, congrArg FixedPart.vstvec h,
    congrArg FixedPart.tsr h, congrArg FixedPart.vtsr h⟩

end Sys2Proof.Machine
end

section
/-! PROOFS. The flags and the CSR fields: `xFCFIE` by mode, the view `sstatus.SPELP`, software access. -/

namespace Sys2Proof.Machine

open Sys2Proof

/-! `xFCFIE` in each mode (R26). -/

theorem State.xfcfie_m {s : State} (hp : s.priv = .m) : s.xfcfie = s.mseccfg.mfcfie := by
  simp [State.xfcfie, hp]

theorem State.xfcfie_s {s : State} (hp : s.priv = .s) (hv : s.virt = false) :
    s.xfcfie = (s.menvcfg.cfie && s.menvcfg.sfcfie) := by
  cases hc : s.menvcfg.cfie <;> simp [State.xfcfie, hp, hv, hc]

theorem State.xfcfie_u {s : State} (hp : s.priv = .u) (hv : s.virt = false) :
    s.xfcfie = (s.menvcfg.cfie && s.mstatus.ufcfie) := by
  cases hc : s.menvcfg.cfie <;> simp [State.xfcfie, hp, hv, hc]

theorem State.xfcfie_vs {s : State} (hp : s.priv = .s) (hv : s.virt = true) :
    s.xfcfie = (s.menvcfg.cfie && s.henvcfg.cfie && s.henvcfg.sfcfie) := by
  cases hc : s.menvcfg.cfie <;> cases hh : s.henvcfg.cfie <;> simp [State.xfcfie, hp, hv, hc, hh]

theorem State.xfcfie_vu {s : State} (hp : s.priv = .u) (hv : s.virt = true) :
    s.xfcfie = (s.menvcfg.cfie && s.henvcfg.cfie && s.vsstatus.ufcfie) := by
  cases hc : s.menvcfg.cfie <;> cases hh : s.henvcfg.cfie <;> simp [State.xfcfie, hp, hv, hc, hh]

/-- Settles O9: the listing of R26 by mode, and that it reads nothing else. -/
theorem xfcfieListing : Obligations.XfcfieListing := by
  refine ⟨fun s => ⟨State.xfcfie_m, State.xfcfie_s, State.xfcfie_u, State.xfcfie_vs, State.xfcfie_vu⟩, ?_⟩
  intro s t hp hv hm hme hms hu hhe hhs hvu
  simp only [State.xfcfie, hp, hv, hm, hme, hms, hu, hhe, hhs, hvu]

/-! The view `sstatus.SPELP` (R23, D20). -/

/-- Settles O52: by the value of `V`. -/
theorem sstatusViewOfSpelp : Obligations.SstatusViewOfSpelp := by
  intro s b
  constructor
  · intro hv
    simp [State.csrField, State.setCsrField, hv]
  · intro hv
    simp [State.csrField, State.setCsrField, hv]

/-! Software access to the ten fields. -/

/-- The model's test of presence is the condition of D21. -/
theorem Config.hasField_iff (cfg : Config) (f : CsrField) : Config.hasField cfg f = true ↔ FieldPresent cfg f := by
  cases f <;> simp [Config.hasField, FieldPresent, and_comm]

/-- The model's test of access is the condition of section 5 of 10_state.md and R202. -/
theorem State.mayAccess_iff (s : State) (f : CsrField) : s.mayAccess f = true ↔ AccessGranted s f := by
  cases hp : s.priv <;> cases hv : s.virt <;> cases f <;> simp [State.mayAccess, AccessGranted, hp, hv]

theorem AccessGranted.not_u {s : State} {f : CsrField} (h : AccessGranted s f) : s.priv ≠ .u := by
  obtain h | ⟨h, -⟩ | ⟨h, -⟩ := h <;> rw [h] <;> decide

theorem State.softwareWrite_isSome_iff (s : State) (f : CsrField) (b : Bool) :
    (∃ t, s.softwareWrite f b = some t) ↔ FieldPresent s.cfg (s.homeOf f) ∧ AccessGranted s f := by
  simp [State.softwareWrite_eq_some, Config.hasField_iff, State.mayAccess_iff]

theorem State.softwareRead_isSome_iff (s : State) (f : CsrField) :
    (∃ v, s.softwareRead f = some v) ↔ FieldPresent s.cfg (s.homeOf f) ∧ AccessGranted s f := by
  simp [State.softwareRead_eq_some, Config.hasField_iff, State.mayAccess_iff]

/-- A field with a bit of its own: nothing but that bit is written. -/
theorem State.setCsrField_frame_of_ne {f : CsrField} (hf : f ≠ .sstatusSPELP) (s : State) (b : Bool) :
    SameOutsideFields s (s.setCsrField f b) := by
  cases f with
  | sstatusSPELP => exact absurd rfl hf
  | _ =>
    constructor
    case regs | memory => exact fun _ => rfl
    all_goals rfl

/-- A write of a field leaves everything but the ten fields alone, through the `sstatus` view too. -/
theorem State.setCsrField_frame (s : State) (f : CsrField) (b : Bool) : SameOutsideFields s (s.setCsrField f b) := by
  by_cases hf : f = .sstatusSPELP
  · rw [hf]
    cases hv : s.virt
    · rw [((sstatusViewOfSpelp s b).1 hv).2]; exact State.setCsrField_frame_of_ne (by decide) s b
    · rw [((sstatusViewOfSpelp s b).2 hv).2]; exact State.setCsrField_frame_of_ne (by decide) s b
  · exact State.setCsrField_frame_of_ne hf s b

theorem State.homeOf_congr {s t : State} (hv : t.virt = s.virt) (f : CsrField) : t.homeOf f = s.homeOf f := by
  simp only [State.homeOf, hv]

theorem State.mayAccess_congr {s t : State} (hp : t.priv = s.priv) (hv : t.virt = s.virt) (f : CsrField) :
    t.mayAccess f = s.mayAccess f := by
  simp only [State.mayAccess, hp, hv]

/-- A field just written reads as the bit written: the write changes neither the mode nor the parameters. -/
theorem State.softwareRead_of_softwareWrite {s t : State} {f : CsrField} {b : Bool} (h : s.softwareWrite f b = some t) :
    t.softwareRead f = some b := by
  obtain ⟨hhas, hacc, rfl⟩ := State.softwareWrite_eq_some.mp h
  have frame := State.setCsrField_frame s f b
  refine State.softwareRead_eq_some.mpr ⟨?_, ?_, ?_⟩
  · rw [State.homeOf_congr frame.virt, frame.cfg]; exact hhas
  · rw [State.mayAccess_congr frame.priv frame.virt]; exact hacc
  · rw [State.csrField_setCsrField, if_pos rfl]

/-- Settles O53: presence and access by the two tests, the bit written by its home, the rest by the frame of the write. -/
theorem csrFieldReadBack : Obligations.CsrFieldReadBack := by
  intro s f b
  refine ⟨s.softwareWrite_isSome_iff f b, s.softwareRead_isSome_iff f, fun t h => ?_⟩
  have hread := State.softwareRead_of_softwareWrite h
  obtain ⟨-, hacc, rfl⟩ := State.softwareWrite_eq_some.mp h
  refine ⟨hread, ((s.mayAccess_iff f).mp hacc).not_u, fun g hg => ?_, fun g hg => ?_, s.setCsrField_frame f b⟩
  · rw [State.csrField_setCsrField, if_pos hg]
  · rw [State.csrField_setCsrField, if_neg hg]

end Sys2Proof.Machine
end

section
/-! PROOFS. What a CFI instruction reads of `x7`: the operations it is made of commute with a register write, and the
labels stand in the low 32 bits. -/

namespace Sys2Proof.Machine

open Sys2Proof

/-! Operations that neither read nor write the registers commute with a register write. -/

section

variable (s : State) (r : RegNum) (v : Word)

theorem State.advance_setReg (n : Nat) : (s.setReg r v).advance n = (s.advance n).setReg r v := by
  unfold State.setReg; split <;> rfl

theorem State.setElp_setReg (e : Elp) : (s.setReg r v).setElp e = (s.setElp e).setReg r v := by
  unfold State.setReg; split <;> rfl

theorem State.setLpl_setReg (l : Lpl) : (s.setReg r v).setLpl l = (s.setLpl l).setReg r v := by
  unfold State.setReg; split <;> rfl

theorem State.trapEntry_setReg (x : TrapMode) (c : Cause) :
    (s.setReg r v).trapEntry x c = (s.trapEntry x c).setReg r v := by
  unfold State.setReg; split <;> cases x <;> rfl

theorem State.trapTarget_setReg (c : Cause) : (s.setReg r v).trapTarget c = s.trapTarget c := by
  unfold State.setReg; split <;> rfl

theorem State.takeTrap_setReg (c : Cause) : (s.setReg r v).takeTrap c = (s.takeTrap c).setReg r v := by
  rw [State.takeTrap, State.trapTarget_setReg, State.trapEntry_setReg, State.takeTrap]

theorem State.raiseIllegal_setReg : (s.setReg r v).raiseIllegal = s.raiseIllegal.setReg r v :=
  s.takeTrap_setReg r v _

theorem State.checkLabel_setReg (field imm : BitVec 8) :
    (s.setReg r v).checkLabel field imm = (s.checkLabel field imm).setReg r v := by
  simp only [State.checkLabel, State.setReg_xfcfie, State.zimopFallback_zero, State.advance_setReg,
    State.raiseIllegal_setReg]
  split_ifs <;> rfl

theorem State.setLabel_setReg (l : Lpl) : (s.setReg r v).setLabel l = (s.setLabel l).setReg r v := by
  simp only [State.setLabel, State.setReg_xfcfie, State.zimopFallback_zero, State.advance_setReg, State.setLpl_setReg]
  split_ifs <;> rfl

end

/-! The labels of `x7`. -/

/-- A field inside the low 32 bits is the same in values that agree there. -/
theorem extractLsb'_eq_of_mod_eq {v v' : Word} (h : v.toNat % 2 ^ 32 = v'.toNat % 2 ^ 32) {p n : Nat} (hp : p + n ≤ 32) :
    v.extractLsb' p n = v'.extractLsb' p n := by
  apply BitVec.eq_of_getLsbD_eq
  intro i hi
  have low : p + i < 32 := by omega
  have bit : (v.toNat % 2 ^ 32).testBit (p + i) = (v'.toNat % 2 ^ 32).testBit (p + i) := by rw [h]
  simp only [Nat.testBit_mod_two_pow, low, decide_true, Bool.true_and] at bit
  rw [BitVec.getLsbD_extractLsb', BitVec.getLsbD_extractLsb']
  exact congrArg (decide (i < n) && ·) bit

theorem firstLabel_eq_of_mod_eq {v v' : Word} (h : v.toNat % 2 ^ 32 = v'.toNat % 2 ^ 32) : firstLabel v = firstLabel v' :=
  extractLsb'_eq_of_mod_eq h (by decide)

theorem nextLabel_eq_of_mod_eq {v v' : Word} (h : v.toNat % 2 ^ 32 = v'.toNat % 2 ^ 32) : nextLabel v = nextLabel v' :=
  extractLsb'_eq_of_mod_eq h (by decide)

/-! The instructions that check a label of `x7`, for each content of it. -/

/-- What `lpcll` answers, up to `x7` itself, when `x7` holds the label `label`. -/
def State.afterLpcll (s : State) (flpl label : BitVec 10) : State :=
  if s.xfcfie then
    if aligned4 s.pc = false then s.raiseIllegal
    else if flpl ≠ label ∧ flpl ≠ 0 then s.raiseIllegal
    else (s.setElp .noLpExpected).advance 4
  else s.advance 4

theorem execLpcll_setReg_x7 (s : State) (flpl : BitVec 10) (v : Word) :
    execLpcll flpl (s.setReg 7 v) = .next ((s.afterLpcll flpl (firstLabel v)).setReg 7 v) := by
  simp only [execLpcll, State.afterLpcll, State.setReg_xfcfie, State.setReg_pc, State.zimopFallback_zero,
    State.reg_setReg_same s 7 v (by decide), State.raiseIllegal_setReg, State.setElp_setReg, State.advance_setReg]
  split_ifs <;> rfl

/-- What `lpcnl` answers, up to `x7` itself, when `x7` holds the label `label`. -/
def State.afterLpcnl (s : State) (nlpl label : BitVec 10) : State :=
  if s.xfcfie then if nlpl ≠ label then s.raiseIllegal else s.advance 4 else s.advance 4

theorem execLpcnl_setReg_x7 (s : State) (nlpl : BitVec 10) (v : Word) :
    execLpcnl nlpl (s.setReg 7 v) = .next ((s.afterLpcnl nlpl (nextLabel v)).setReg 7 v) := by
  simp only [execLpcnl, State.afterLpcnl, State.setReg_xfcfie, State.zimopFallback_zero,
    State.reg_setReg_same s 7 v (by decide), State.raiseIllegal_setReg, State.advance_setReg]
  split_ifs <;> rfl

/-- A CFI instruction reads nothing of `x7` but its two labels: the answer is a function of them, up to `x7` itself. -/
theorem exec_setReg_x7 (s : State) {i : Instr} (hcfi : isCfi i = true) :
    ∃ after : BitVec 10 → BitVec 10 → State, ∀ v : Word,
      exec i (s.setReg 7 v) = .next ((after (firstLabel v) (nextLabel v)).setReg 7 v) := by
  cases i with
  | lpcll flpl => exact ⟨fun first _ => s.afterLpcll flpl first, execLpcll_setReg_x7 s flpl⟩
  | lpcnl nlpl => exact ⟨fun _ next => s.afterLpcnl nlpl next, execLpcnl_setReg_x7 s nlpl⟩
  | lpcml mlpl => exact ⟨fun _ _ => s.checkLabel s.lpl.ml mlpl,
      fun v => congrArg Host.Outcome.next (s.checkLabel_setReg 7 v s.lpl.ml mlpl)⟩
  | lpcul ulpl => exact ⟨fun _ _ => s.checkLabel s.lpl.ul ulpl,
      fun v => congrArg Host.Outcome.next (s.checkLabel_setReg 7 v s.lpl.ul ulpl)⟩
  | lpsll llpl => exact ⟨fun _ _ => s.setLabel ⟨llpl, 0, 0⟩,
      fun v => congrArg Host.Outcome.next (s.setLabel_setReg 7 v ⟨llpl, 0, 0⟩)⟩
  | lpsml mlpl => exact ⟨fun _ _ => s.setLabel { s.lpl with ml := mlpl },
      fun v => congrArg Host.Outcome.next (s.setLabel_setReg 7 v { s.lpl with ml := mlpl })⟩
  | lpsul ulpl => exact ⟨fun _ _ => s.setLabel { s.lpl with ul := ulpl },
      fun v => congrArg Host.Outcome.next (s.setLabel_setReg 7 v { s.lpl with ul := ulpl })⟩
  | _ => exact nomatch hcfi

/-- Settles O51: the two labels stand in the low 32 bits of `x7`. -/
theorem upperHalfOfX7Unread : Obligations.UpperHalfOfX7Unread := by
  intro s i v v' hcfi hlow
  obtain ⟨after, hexec⟩ := exec_setReg_x7 s hcfi
  refine ⟨after (firstLabel v) (nextLabel v), hexec v, ?_⟩
  rw [firstLabel_eq_of_mod_eq hlow, nextLabel_eq_of_mod_eq hlow]
  exact hexec v'

end Sys2Proof.Machine
end

section
/-! PROOFS. Fetch: which bytes it joins, and that a placed word is what it delivers to the next step. -/

namespace Sys2Proof.Machine

open Sys2Proof

/-! Addresses in steps of a byte (D1, log 19). -/

theorem pcPlus_pcPlus (x : Xlen) (a : Word) (m n : Nat) : pcPlus x (pcPlus x a m) n = pcPlus x a (m + n) := by
  apply BitVec.eq_of_toNat_eq
  rw [pcPlus_toNat, pcPlus_toNat, pcPlus_toNat, Nat.mod_add_mod, Nat.add_assoc]

/-- Addresses fewer than `2^32` bytes apart differ. -/
theorem pcPlus_toNat_ne (x : Xlen) (a : Word) {m n : Nat} (hmn : m < n) (hn : n < 2 ^ 32) :
    (pcPlus x a n).toNat ≠ (pcPlus x a m).toNat := by
  rw [pcPlus_toNat, pcPlus_toNat]
  cases x <;> simp only [Xlen.bits] <;> omega

/-- The same for the address counted from, also where that one does not fit `XLEN` bits. -/
theorem pcPlus_toNat_ne_self (x : Xlen) (a : Word) {n : Nat} (h0 : 0 < n) (hn : n < 2 ^ 32) :
    (pcPlus x a n).toNat ≠ a.toNat := by
  rw [pcPlus_toNat]
  cases x <;> simp only [Xlen.bits] <;> omega

/-! What is fetched, from the bytes (R41, R74). -/

theorem isLong_append_iff (hi lo : Byte) : isLong (hi ++ lo) = true ↔ lo.toNat % 4 = 3 := by
  rw [isLong, beq_iff_eq, ← BitVec.toNat_inj, BitVec.extractLsb'_toNat, BitVec.toNat_append,
    ← Nat.shiftLeft_add_eq_or_of_lt lo.isLt, Nat.shiftLeft_eq, Nat.shiftRight_zero, BitVec.toNat_ofNat]
  omega

theorem State.readParcel_of_bytes {s : State} {a : Word} {lo hi : Byte} (hlo : s.readByte a = some lo)
    (hhi : s.readByte (pcPlus s.cfg.xlen a 1) = some hi) : s.readParcel a = some (hi ++ lo) := by
  rw [State.readParcel, hlo, hhi]

theorem State.fetch_of_short_parcel {s : State} {p : BitVec 16} (hp : s.readParcel s.pc = some p)
    (hshort : isLong p = false) : s.fetch = some (.half p) := by
  simp [State.fetch, hp, hshort]

theorem State.fetch_of_long_parcel {s : State} {p q : BitVec 16} (hp : s.readParcel s.pc = some p)
    (hlong : isLong p = true) (hq : s.readParcel (pcPlus s.cfg.xlen s.pc 2) = some q) :
    s.fetch = some (.word (q ++ p)) := by
  simp [State.fetch, hp, hlong, hq]

/-- A first byte that does not end in 11 begins a 16-bit instruction. -/
theorem State.fetch_half {s : State} {b0 b1 : Byte} (h0 : s.readByte s.pc = some b0)
    (h1 : s.readByte (pcPlus s.cfg.xlen s.pc 1) = some b1) (hshort : b0.toNat % 4 ≠ 3) :
    s.fetch = some (.half (b1 ++ b0)) :=
  State.fetch_of_short_parcel (State.readParcel_of_bytes h0 h1)
    (Bool.eq_false_iff.mpr (mt (isLong_append_iff b1 b0).mp hshort))

/-- A first byte that ends in 11 begins a 32-bit instruction, the second parcel in its upper half. -/
theorem State.fetch_word {s : State} {b0 b1 b2 b3 : Byte} (h0 : s.readByte s.pc = some b0)
    (h1 : s.readByte (pcPlus s.cfg.xlen s.pc 1) = some b1) (h2 : s.readByte (pcPlus s.cfg.xlen s.pc 2) = some b2)
    (h3 : s.readByte (pcPlus s.cfg.xlen s.pc 3) = some b3) (hlong : b0.toNat % 4 = 3) :
    s.fetch = some (.word (b3 ++ b2 ++ b1 ++ b0)) := by
  have lower : s.readParcel s.pc = some (b1 ++ b0) := State.readParcel_of_bytes h0 h1
  have upper : s.readParcel (pcPlus s.cfg.xlen s.pc 2) = some (b3 ++ b2) :=
    State.readParcel_of_bytes h2 (by rw [pcPlus_pcPlus]; exact h3)
  have joined : b3 ++ b2 ++ b1 ++ b0 = (b3 ++ b2) ++ (b1 ++ b0) := BitVec.append_assoc.trans (BitVec.cast_eq _ _)
  rw [State.fetch_of_long_parcel lower ((isLong_append_iff b1 b0).mpr hlong) upper, ← joined]

/-- Settles O7: the addresses of the statement are those of the fetch, as numbers. -/
theorem fetchIsLittleEndian : Obligations.FetchIsLittleEndian := by
  intro s b0 b1 h0 h1
  rw [← pcPlus_toNat] at h1
  refine ⟨State.fetch_half h0 h1, fun b2 b3 hlong h2 h3 => ?_⟩
  rw [← pcPlus_toNat] at h2 h3
  exact State.fetch_word h0 h1 h2 h3 hlong

/-! What is stored is read back. -/

/-- Four stored bytes stand at their four addresses: no later byte overwrites an earlier one. -/
theorem State.readByte_storeBytes (s : State) (a : Word) (b0 b1 b2 b3 : Byte) :
    (s.storeBytes a [b0, b1, b2, b3]).readByte a = some b0 ∧
    (s.storeBytes a [b0, b1, b2, b3]).readByte (pcPlus s.cfg.xlen a 1) = some b1 ∧
    (s.storeBytes a [b0, b1, b2, b3]).readByte (pcPlus s.cfg.xlen a 2) = some b2 ∧
    (s.storeBytes a [b0, b1, b2, b3]).readByte (pcPlus s.cfg.xlen a 3) = some b3 := by
  have ne0 {n : Nat} (h0 : 0 < n) (hn : n < 2 ^ 32) : a.toNat ≠ (pcPlus s.cfg.xlen a n).toNat :=
    (pcPlus_toNat_ne_self s.cfg.xlen a h0 hn).symm
  have ne {m n : Nat} (hmn : m < n) (hn : n < 2 ^ 32) :
      (pcPlus s.cfg.xlen a m).toNat ≠ (pcPlus s.cfg.xlen a n).toNat := (pcPlus_toNat_ne s.cfg.xlen a hmn hn).symm
  simp [State.storeBytes, State.readByte, pcPlus_pcPlus, Memory.read_write_same, Memory.read_write_other, ne0, ne]

/-! The placed word. -/

/-- Placing a word writes memory and the input of the next step alone. -/
theorem State.withFetchWord_eq (s : State) (nbits w : Nat) :
    s.withFetchWord nbits w =
      { s with inputs := quietHead s.inputs, mem := (s.withFetchWord nbits w).mem } :=
  State.storeBytes_eq _ _ _

@[simp] theorem State.withFetchWord_cfg (s : State) (nbits w : Nat) : (s.withFetchWord nbits w).cfg = s.cfg := by
  rw [s.withFetchWord_eq nbits w]

@[simp] theorem State.withFetchWord_pc (s : State) (nbits w : Nat) : (s.withFetchWord nbits w).pc = s.pc := by
  rw [s.withFetchWord_eq nbits w]

theorem State.withFetchWord_padDue (s : State) (nbits w : Nat) : (s.withFetchWord nbits w).padDue ↔ s.padDue := by
  rw [s.withFetchWord_eq nbits w]; rfl

theorem State.withFetchWord_input (s : State) (nbits w : Nat) : (s.withFetchWord nbits w).input = ⟨none, none⟩ := by
  rw [s.withFetchWord_eq nbits w]
  change (quietHead s.inputs).headD ⟨none, none⟩ = _
  cases s.inputs <;> rfl

/-- A placed word stands at `pc` least significant byte first (R41). -/
theorem State.withFetchWord_readByte {s t : State} {nbits : Nat} {w : BitVec nbits}
    (ht : s.withFetchWord nbits w.toNat = t) :
    t.readByte t.pc = some (w.extractLsb' 0 8) ∧
    t.readByte (pcPlus t.cfg.xlen t.pc 1) = some (w.extractLsb' 8 8) ∧
    t.readByte (pcPlus t.cfg.xlen t.pc 2) = some (w.extractLsb' 16 8) ∧
    t.readByte (pcPlus t.cfg.xlen t.pc 3) = some (w.extractLsb' 24 8) := by
  subst ht
  rw [State.withFetchWord_cfg, State.withFetchWord_pc, State.withFetchWord, State.placeWord, Nat.mod_eq_of_lt w.isLt]
  exact State.readByte_storeBytes { s with inputs := quietHead s.inputs } s.pc _ _ _ _

/-- The low byte of a word has the length bits of the word. -/
theorem lowByte_mod_four {n : Nat} (w : BitVec n) : (w.extractLsb' 0 8).toNat % 4 = w.toNat % 4 := by
  rw [BitVec.extractLsb'_toNat, Nat.shiftRight_zero]
  omega

theorem State.withFetchWord_fetch_half (s : State) {h : BitVec 16} (hshort : h.toNat % 4 ≠ 3) :
    (s.withFetchWord 16 h.toNat).fetch = some (.half h) := by
  obtain ⟨b0, b1, -, -⟩ := State.withFetchWord_readByte (s := s) (w := h) rfl
  have joined : h.extractLsb' 8 8 ++ h.extractLsb' 0 8 = h := BitVec.extractLsb'_append_extractLsb'
  rw [State.fetch_half b0 b1 (by rwa [lowByte_mod_four]), joined]

theorem State.withFetchWord_fetch_word (s : State) {w : BitVec 32} (hlong : w.toNat % 4 = 3) :
    (s.withFetchWord 32 w.toNat).fetch = some (.word w) := by
  obtain ⟨b0, b1, b2, b3⟩ := State.withFetchWord_readByte (s := s) (w := w) rfl
  have joined : w.extractLsb' 24 8 ++ w.extractLsb' 16 8 ++ w.extractLsb' 8 8 ++ w.extractLsb' 0 8 = w := by
    rw [BitVec.extractLsb'_append_extractLsb'_eq_extractLsb' (show 24 = 16 + 8 from rfl),
      BitVec.extractLsb'_append_extractLsb'_eq_extractLsb' (show 16 = 8 + 8 from rfl)]
    exact BitVec.extractLsb'_append_extractLsb'
  rw [State.fetch_word b0 b1 b2 b3 (by rwa [lowByte_mod_four]), joined]

/-! The step that runs it. -/

/-- A fetch reads nothing of the environment's inputs. -/
@[simp] theorem State.popInput_fetch (s : State) : s.popInput.fetch = s.fetch := rfl

/-- The landing pad requirement does not stop a step where no pad is due, nor an `lpcll` (R95). -/
theorem State.padMissing_instr_eq_false {s : State} {i : Instr} (hpad : ¬ s.padDue ∨ ∃ flpl, i = .lpcll flpl) :
    s.padMissing (.instr i) = false := by
  rw [Bool.eq_false_iff, Ne, State.padMissing_iff]
  rintro ⟨hact, help, hno⟩
  obtain hdue | ⟨flpl, rfl⟩ := hpad
  · exact hdue ⟨hact, help⟩
  · exact nomatch hno

/-- R96 lines 3 to 6: the instruction a step comes to is executed, if the landing pad requirement lets it. -/
theorem step_of_runs {s : State} {i : Instr} (hrun : s.runs i) (hpad : ¬ s.padDue ∨ ∃ flpl, i = .lpcll flpl) :
    step s = exec i s.popInput := by
  obtain ⟨hirq, hfault, w, hfetch, hdecode⟩ := hrun
  have hgo : s.popInput.padMissing (.instr i) = false := State.padMissing_instr_eq_false (s := s.popInput) hpad
  simp [step, stepWith, runFetched, hirq, hfault, hfetch, hdecode, hgo]

/-- A placed word that is fetched as `f` runs the instruction that `f` decodes to. -/
theorem State.withFetchWord_runs {s : State} {nbits w : Nat} {f : InstWord} {i : Instr}
    (hfetch : (s.withFetchWord nbits w).fetch = some f) (hdecode : decode s.cfg f = .instr i) :
    (s.withFetchWord nbits w).runs i := by
  have hinput := s.withFetchWord_input nbits w
  exact ⟨congrArg StepInput.irq hinput, congrArg StepInput.fetchFault hinput, f, hfetch,
    by rwa [State.withFetchWord_cfg]⟩

/-- Settles O8: the placed word is what is fetched, and placing does not change whether a landing pad is due. -/
theorem placedWordRuns : Obligations.PlacedWordRuns := by
  intro s i
  constructor
  · intro w hlong hdecode hpad
    rw [← s.withFetchWord_padDue 32 w.toNat] at hpad
    exact step_of_runs (State.withFetchWord_runs (s.withFetchWord_fetch_word hlong) hdecode) hpad
  · intro h hshort hdecode hpad
    rw [← s.withFetchWord_padDue 16 h.toNat] at hpad
    exact step_of_runs (State.withFetchWord_runs (s.withFetchWord_fetch_half hshort) hdecode) (.inl hpad)

end Sys2Proof.Machine
end

section
/-! PROOFS. Encoding and decoding undo each other: the fields of a word and the row it is in say which word it is. -/

namespace Sys2Proof

/-! Fields and fixed bits of a word. -/

/-- A field taken out and placed again is the part of the word under the field's bits. -/
theorem place_extract (w : BitVec 32) (pos n : Nat) :
    place (w.extractLsb' pos n) pos = w &&& place (BitVec.allOnes n) pos := by
  apply BitVec.eq_of_getLsbD_eq
  intro i hi
  simp only [BitVec.getLsbD_and, place_getLsbD _ _ _ hi, BitVec.getLsbD_allOnes, BitVec.getLsbD_extractLsb']
  by_cases hpos : pos ≤ i
  · simp [hpos, Bool.and_comm]
  · simp [hpos]

/-- The match of a row and the word's bits outside the row's mask make up the word. -/
theorem or_and_of_inRow {w mask mat fields : BitVec 32} (h : inRow w mask mat = true)
    (hall : mask ||| fields = BitVec.allOnes 32) : mat ||| (w &&& fields) = w := by
  rw [← (inRow_iff w mask mat).mp h, ← BitVec.and_or_distrib_left, hall, BitVec.and_allOnes]

/-- A field inside the mask holds what the fixed bits say. -/
theorem extract_of_and {k : Nat} {v mask mat : BitVec k} (h : v &&& mask = mat) (start n : Nat)
    (hmask : mask.extractLsb' start n = BitVec.allOnes n) : v.extractLsb' start n = mat.extractLsb' start n := by
  rw [← h, BitVec.extractLsb'_and, hmask, BitVec.and_allOnes]

theorem inRow_allOnes (w mat : BitVec 32) : inRow w 0xFFFFFFFF mat = (w == mat) := by
  rw [inRow, show (0xFFFFFFFF : BitVec 32) = BitVec.allOnes 32 from rfl, BitVec.and_allOnes]

/-- A word of a row is in every row that fixes fewer bits to the same values. -/
theorem inRow_of_subset {w mask mat mask' mat' : BitVec 32} (h : inRow w mask mat = true)
    (hmask : mask &&& mask' = mask') (hmat : mat &&& mask' = mat') : inRow w mask' mat' = true := by
  rw [inRow_iff] at h ⊢
  rw [← hmat, ← h, BitVec.and_assoc, hmask]

section
variable {mask mat : BitVec 32} (hsub : mat &&& ~~~mask = 0)
include hsub

theorem inRow_match : inRow mat mask mat = true := by
  rw [inRow_iff]
  calc mat &&& mask = mat &&& mask ||| mat &&& ~~~mask := by rw [hsub]; exact BitVec.or_zero.symm
    _ = mat &&& (mask ||| ~~~mask) := BitVec.and_or_distrib_left.symm
    _ = mat := by rw [BitVec.or_not_self, BitVec.and_allOnes]

/-- A field outside the mask of a row is 0 in the row's match. -/
theorem extract_match {pos n : Nat} (hfree : place (BitVec.allOnes n) pos &&& mask = 0) (hpos : pos + n ≤ 32) :
    mat.extractLsb' pos n = 0#n := by
  have hmask : (~~~mask).extractLsb' pos n = BitVec.allOnes n := by
    apply BitVec.eq_of_getLsbD_eq
    intro i hi
    have hbit := congrArg (·.getLsbD (pos + i)) hfree
    simp only [BitVec.getLsbD_and, place_getLsbD _ _ _ (show pos + i < 32 by omega), BitVec.getLsbD_allOnes] at hbit
    simpa [hi, show pos + i < 32 by omega] using hbit
  exact (extract_of_and hsub pos n hmask).trans BitVec.extractLsb'_zero

/-- A row with one field: the word with the field placed is in the row, and the field is read back. -/
theorem match_or_place {pos n : Nat} (hfree : place (BitVec.allOnes n) pos &&& mask = 0) (hpos : pos + n ≤ 32)
    (v : BitVec n) :
    inRow (mat ||| place v pos) mask mat = true ∧ (mat ||| place v pos).extractLsb' pos n = v := by
  constructor
  · rw [inRow_or_place _ _ _ _ _ hfree, inRow_match hsub]
  · rw [BitVec.extractLsb'_or, extract_place v pos hpos, extract_match hsub hfree hpos, BitVec.zero_or]

end

/-! Which row a word is decoded by: rows of priority 1 share no word, so the first row it is in is the only one (R69). -/

/-- Mask and match of a row, and the instruction that a word of the row is read as. -/
abbrev RowReader := (BitVec 32 × BitVec 32) × (BitVec 32 → Instr)

/-- The rows of `rows32` with their readings. -/
def readers32 : List RowReader :=
  rows32.zip
    [ fun w => .lpcll (w.extractLsb' 15 10)
    , fun w => .lpcml (w.extractLsb' 15 8)
    , fun w => .lpcul (w.extractLsb' 15 8)
    , fun w => .lpsml (w.extractLsb' 15 8)
    , fun w => .lpsul (w.extractLsb' 15 8)
    , fun w => .lui (rdOf w) (w.extractLsb' 12 20)
    , fun w => .addi (rdOf w) (rs1Of w) (imm12Of w)
    , fun w => .jalr (rdOf w) (rs1Of w) (imm12Of w)
    , fun _ => .mret
    , fun _ => .sret ]

/-- The reading of a word by the first row it is in, or `other` where it is in none. -/
def readFirst (w : BitVec 32) (other : Decoded) : List RowReader → Decoded
  | [] => other
  | r :: rs => if inRow w r.1.1 r.1.2 then .instr (r.2 w) else readFirst w other rs

theorem decode32_eq_readFirst (cfg : Config) (w : BitVec 32) :
    decode32 cfg w = readFirst w (decodeFallback32 cfg w) readers32 := by
  rw [decode32, ← inRow_allOnes, ← inRow_allOnes]
  rfl

/-- Where the rows conflict, their order does not matter. -/
theorem readFirst_of_mem {w : BitVec 32} {other : Decoded} {r : RowReader} {rs : List RowReader}
    (hapart : rs.Pairwise fun a b => (b.1.2 ^^^ a.1.2) &&& b.1.1 &&& a.1.1 ≠ 0)
    (hr : r ∈ rs) (hin : inRow w r.1.1 r.1.2 = true) : readFirst w other rs = .instr (r.2 w) := by
  induction rs with
  | nil => cases hr
  | cons a rs ih =>
    obtain ⟨hhead, htail⟩ := List.pairwise_cons.mp hapart
    obtain rfl | hmem := List.mem_cons.mp hr
    · exact if_pos hin
    · have hnot : inRow w a.1.1 a.1.2 = false := inRow_of_conflict _ _ hin (hhead r hmem)
      rw [readFirst, hnot, if_neg Bool.false_ne_true, ih htail hmem]

theorem readFirst_of_none {w : BitVec 32} {other : Decoded} {rs : List RowReader}
    (h : ∀ r ∈ rs, inRow w r.1.1 r.1.2 = false) : readFirst w other rs = other := by
  induction rs with
  | nil => rfl
  | cons a rs ih =>
    obtain ⟨hhead, htail⟩ := List.forall_mem_cons.mp h
    rw [readFirst, hhead, if_neg Bool.false_ne_true, ih htail]

theorem readers32_apart : readers32.Pairwise fun a b => (b.1.2 ^^^ a.1.2) &&& b.1.1 &&& a.1.1 ≠ 0 := by
  simp [readers32, rows32]

/-- A word of a row of priority 1 is read as that row's instruction. -/
theorem decode32_of_inRow (cfg : Config) {w : BitVec 32} (k : Nat) {r : RowReader} (hr : readers32[k]? = some r)
    (hin : inRow w r.1.1 r.1.2 = true) : decode32 cfg w = .instr (r.2 w) :=
  (decode32_eq_readFirst cfg w).trans (readFirst_of_mem readers32_apart (List.mem_of_getElem? hr) hin)

/-- A word of no row of priority 1 falls through to priority 2. -/
theorem decode32_of_no_row (cfg : Config) {w : BitVec 32} (h : ∀ row ∈ rows32, inRow w row.1 row.2 = false) :
    decode32 cfg w = decodeFallback32 cfg w :=
  (decode32_eq_readFirst cfg w).trans (readFirst_of_none fun r hr => h r.1 (List.of_mem_zip hr).1)

/-! The Zimop fallbacks. -/

/-- Each row of priority 1 fixes `rd` to 0 or has another opcode than SYSTEM. -/
theorem rows32_rd_or_opcode : ∀ row ∈ rows32,
    (row.1 &&& 0xF80 = 0xF80 ∧ row.2 &&& 0xF80 = 0) ∨ (0x73 ^^^ row.2) &&& 0x7F &&& row.1 ≠ 0 := by
  simp [rows32]

section
variable {w : BitVec 32} (hrd : rdOf w ≠ 0)
include hrd

/-- A SYSTEM word with `rd ≠ 0` is in no row of priority 1 (R160, R161). -/
theorem not_inRow_of_rd_ne_zero (hop : inRow w 0x7F 0x73 = true) : ∀ row ∈ rows32, inRow w row.1 row.2 = false := by
  intro row hrow
  obtain ⟨hmask, hmat⟩ | hconflict := rows32_rd_or_opcode row hrow
  · exact Bool.eq_false_of_not_eq_true fun hin => hrd (rdOf_of_inRow hin hmask hmat)
  · exact inRow_of_conflict _ _ hop hconflict

theorem decode32_mopRr0 (cfg : Config) (h : inRow w 0xFE00707F 0x82004073 = true) :
    decode32 cfg w = .instr (.mopRr0 (rdOf w) (w.extractLsb' 15 10)) := by
  rw [decode32_of_no_row cfg (not_inRow_of_rd_ne_zero hrd (inRow_of_subset h rfl rfl)), decodeFallback32,
    if_pos (Bool.and_eq_true_iff.mpr ⟨h, bne_iff_ne.mpr hrd⟩)]

theorem decode32_mopRr1 (cfg : Config) (h : inRow w 0xFE00707F 0x86004073 = true) :
    decode32 cfg w = .instr (.mopRr1 (rdOf w) (w.extractLsb' 15 10)) := by
  have hnot : inRow w 0xFE00707F 0x82004073 = false := inRow_of_conflict _ _ h (by decide)
  rw [decode32_of_no_row cfg (not_inRow_of_rd_ne_zero hrd (inRow_of_subset h rfl rfl)), decodeFallback32, hnot,
    Bool.false_and, if_neg Bool.false_ne_true, if_pos (Bool.and_eq_true_iff.mpr ⟨h, bne_iff_ne.mpr hrd⟩)]

end

/-! `lpcnl` under a usable `LPCNL_ENC` (R67). -/

theorem LpcnlEnc.usable_iff (e : LpcnlEnc) : e.usable = true ↔
    e.pos + 10 ≤ 32 ∧ e.mat &&& ~~~e.mask = 0 ∧ place (BitVec.allOnes 10) e.pos &&& e.mask = 0 ∧
      e.mask &&& 0xF83 = 0xF83 ∧ e.mat &&& 0xF83 = 3 ∧
      ∀ row ∈ rows32, (e.mat ^^^ row.2) &&& e.mask &&& row.1 ≠ 0 := by
  have hbits : place (BitVec.allOnes 10) e.pos = nlplBits e.pos := rfl
  simp only [LpcnlEnc.usable, Bool.and_eq_true, decide_eq_true_eq, beq_iff_eq, List.all_eq_true, bne_iff_ne, and_assoc,
    hbits]

theorem decode32_lpcnl {cfg : Config} {e : LpcnlEnc} {w : BitVec 32} (he : cfg.lpcnl = some e)
    (h : inRow w e.mask e.mat = true) : decode32 cfg w = .instr (.lpcnl (w.extractLsb' e.pos 10)) := by
  obtain ⟨-, -, -, hmask, hmat, hrows⟩ := e.usable_iff.mp (Config.usable_of_lpcnl he)
  have hfixed : inRow w 0xF83 3 = true := inRow_of_subset h hmask hmat
  have hrd : rdOf w = 0 := rdOf_of_inRow hfixed rfl rfl
  rw [decode32_of_no_row cfg fun row hrow => inRow_of_conflict _ _ h (hrows row hrow)]
  simp [decodeFallback32, hrd, he, h]

/-! 16-bit parcels. -/

section
variable {cfg : Config} {p : BitVec 16} (hc : cfg.hasC = true)
include hc

theorem decode16_cJr (h : p &&& 0xF07F = 0x8002) (hr : regOf16 p ≠ 0) :
    decode16 cfg p = .instr (.cJr (regOf16 p)) := by
  rw [decode16, if_neg (by simp [hc]), h]
  exact if_neg hr

theorem decode16_cJalr (h : p &&& 0xF07F = 0x9002) (hr : regOf16 p ≠ 0) :
    decode16 cfg p = .instr (.cJalr (regOf16 p)) := by
  rw [decode16, if_neg (by simp [hc]), h]
  exact if_neg hr

/-- Bit 15 tells `C.SLLI` from `C.JR` and `C.JALR`. -/
theorem decode16_cSlli (h : p &&& 0xE003 = 0x0002) (hx : ¬ (cfg.xlen = .rv32 ∧ p.getLsbD 12 = true)) :
    decode16 cfg p = .instr (.cSlli (regOf16 p) (p.extractLsb' 12 1 ++ p.extractLsb' 2 5)) := by
  have hbit : p.extractLsb' 15 1 = 0#1 := extract_of_and h 15 1 rfl
  have notJump : ∀ mat : BitVec 16, mat.extractLsb' 15 1 = 1#1 → ¬ (p &&& 0xF07F == mat) = true := by
    intro mat hmat hjump
    have hbit' : p.extractLsb' 15 1 = mat.extractLsb' 15 1 := extract_of_and (beq_iff_eq.mp hjump) 15 1 rfl
    exact absurd (hbit.symm.trans (hbit'.trans hmat)) (by decide)
  rw [decode16, if_neg (by simp [hc]), if_neg (notJump _ rfl), if_neg (notJump _ rfl), h]
  exact if_neg hx

end

/-- The fixed bits and the field of a parcel of `C.JR` or `C.JALR`. -/
theorem jumpParcel_fields (funct4 : BitVec 4) (rs1 : RegNum) :
    (funct4 ++ rs1 ++ 0b0000010#7) &&& 0xF07F#16 = funct4 ++ 0#5 ++ 0b0000010#7 ∧
      (funct4 ++ rs1 ++ 0b0000010#7).extractLsb' 7 5 = rs1 := by
  constructor
  · calc (funct4 ++ rs1 ++ 0b0000010#7) &&& (BitVec.allOnes 4 ++ 0#5 ++ BitVec.allOnes 7)
      _ = (funct4 &&& BitVec.allOnes 4) ++ (rs1 &&& 0#5) ++ (0b0000010#7 &&& BitVec.allOnes 7) := by
        rw [BitVec.and_append, BitVec.and_append]
      _ = funct4 ++ 0#5 ++ 0b0000010#7 := by rw [BitVec.and_zero, BitVec.and_allOnes, BitVec.and_allOnes]
  · rw [BitVec.extractLsb'_append_eq_of_le (by decide)]
    exact BitVec.extractLsb'_append_eq_right

/-- The fixed bits and the fields of a parcel of `C.SLLI`. -/
theorem shiftParcel_fields (hi : BitVec 1) (rd : RegNum) (lo : BitVec 5) :
    (0b000#3 ++ hi ++ rd ++ lo ++ 0b10#2) &&& 0xE003#16 = 0x0002#16 ∧
      (0b000#3 ++ hi ++ rd ++ lo ++ 0b10#2).extractLsb' 7 5 = rd ∧
      (0b000#3 ++ hi ++ rd ++ lo ++ 0b10#2).extractLsb' 12 1 = hi ∧
      (0b000#3 ++ hi ++ rd ++ lo ++ 0b10#2).extractLsb' 2 5 = lo := by
  refine ⟨?_, ?_, ?_, ?_⟩
  · calc (0b000#3 ++ hi ++ rd ++ lo ++ 0b10#2) &&& (0b111#3 ++ 0#1 ++ 0#5 ++ 0#5 ++ 0b11#2)
      _ = (0b000#3 &&& 0b111#3) ++ (hi &&& 0#1) ++ (rd &&& 0#5) ++ (lo &&& 0#5) ++ (0b10#2 &&& 0b11#2) := by
        rw [BitVec.and_append, BitVec.and_append, BitVec.and_append, BitVec.and_append]
      _ = 0x0002#16 := by rw [BitVec.and_zero, BitVec.and_zero, BitVec.and_zero]; rfl
  · rw [BitVec.extractLsb'_append_eq_of_le (by decide), BitVec.extractLsb'_append_eq_of_le (by decide)]
    exact BitVec.extractLsb'_append_eq_right
  · rw [BitVec.extractLsb'_append_eq_of_le (by decide), BitVec.extractLsb'_append_eq_of_le (by decide),
      BitVec.extractLsb'_append_eq_of_le (by decide)]
    exact BitVec.extractLsb'_append_eq_right
  · rw [BitVec.extractLsb'_append_eq_of_le (by decide)]
    exact BitVec.extractLsb'_append_eq_right

/-! Decoding what was encoded. -/

/-- The encoder gives `i` a word, and the decoder reads `i` back from it. -/
def RoundTrips (cfg : Config) (i : Instr) : Prop := ∃ w, encode cfg i = some w ∧ decode cfg w = .instr i

theorem roundTrips_of_inRow {cfg : Config} {i : Instr} {w : BitVec 32} (k : Nat) {r : RowReader}
    (hencode : encode cfg i = some (.word w)) (hr : readers32[k]? = some r) (hin : inRow w r.1.1 r.1.2 = true)
    (hread : r.2 w = i) : RoundTrips cfg i :=
  ⟨.word w, hencode, (decode32_of_inRow cfg k hr hin).trans (congrArg Decoded.instr hread)⟩

/-- A row whose only field is the operand, in bits 15 and up. -/
theorem roundTrips_label {cfg : Config} {n : Nat} {v : BitVec n} {mask mat : BitVec 32} (k : Nat)
    (op : BitVec n → Instr) (hencode : encode cfg (op v) = some (.word (mat ||| place v 15)))
    (hr : readers32[k]? = some ((mask, mat), fun w => op (w.extractLsb' 15 n))) (hsub : mat &&& ~~~mask = 0)
    (hfree : place (BitVec.allOnes n) 15 &&& mask = 0) (hpos : 15 + n ≤ 32) : RoundTrips cfg (op v) := by
  obtain ⟨hrow, hfield⟩ := match_or_place hsub hfree hpos v
  exact roundTrips_of_inRow k hencode hr hrow (congrArg op hfield)

/-- The row and the fields of a word of `ADDI` or `JALR` (R171, R172). -/
theorem iType_fields {base : BitVec 32} (hsub : base &&& ~~~0x0000707F = 0) (rd rs1 : RegNum) (imm12 : BitVec 12) :
    inRow (base ||| place imm12 20 ||| place rs1 15 ||| place rd 7) 0x0000707F base = true ∧
      rdOf (base ||| place imm12 20 ||| place rs1 15 ||| place rd 7) = rd ∧
      rs1Of (base ||| place imm12 20 ||| place rs1 15 ||| place rd 7) = rs1 ∧
      imm12Of (base ||| place imm12 20 ||| place rs1 15 ||| place rd 7) = imm12 := by
  refine ⟨?_, ?_, ?_, ?_⟩
  · simp (disch := decide) only [inRow_or_place, inRow_match hsub]
  all_goals
    simp (disch := decide) [rdOf, rs1Of, imm12Of, BitVec.extractLsb'_or, extract_place, extract_place_disjoint,
      extract_match hsub]

/-- The row and the fields of a word of a Zimop fallback (R160, R161). -/
theorem mopRr_fields {base : BitVec 32} (hsub : base &&& ~~~0xFE00707F = 0) (rd : RegNum) (ignored : BitVec 10) :
    inRow (base ||| place ignored 15 ||| place rd 7) 0xFE00707F base = true ∧
      rdOf (base ||| place ignored 15 ||| place rd 7) = rd ∧
      (base ||| place ignored 15 ||| place rd 7).extractLsb' 15 10 = ignored := by
  refine ⟨?_, ?_, ?_⟩
  · simp (disch := decide) only [inRow_or_place, inRow_match hsub]
  all_goals
    simp (disch := decide) [rdOf, BitVec.extractLsb'_or, extract_place, extract_place_disjoint, extract_match hsub]

theorem roundTrips_lui (cfg : Config) (rd : RegNum) (imm20 : BitVec 20) : RoundTrips cfg (.lui rd imm20) := by
  refine roundTrips_of_inRow 5 rfl rfl ?_ ?_
  · simp (disch := decide) only [inRow_or_place]
    rfl
  · simp (disch := decide) [rdOf, BitVec.extractLsb'_or, extract_place, extract_place_disjoint]

theorem roundTrips_addi (cfg : Config) (rd rs1 : RegNum) (imm12 : BitVec 12) : RoundTrips cfg (.addi rd rs1 imm12) := by
  obtain ⟨hrow, hrd, hrs1, himm⟩ := iType_fields (base := 0x00000013) rfl rd rs1 imm12
  exact roundTrips_of_inRow 6 rfl rfl hrow (by simp only [hrd, hrs1, himm])

theorem roundTrips_jalr (cfg : Config) (rd rs1 : RegNum) (imm12 : BitVec 12) : RoundTrips cfg (.jalr rd rs1 imm12) := by
  obtain ⟨hrow, hrd, hrs1, himm⟩ := iType_fields (base := 0x00000067) rfl rd rs1 imm12
  exact roundTrips_of_inRow 7 rfl rfl hrow (by simp only [hrd, hrs1, himm])

theorem roundTrips_mopRr0 (cfg : Config) {rd : RegNum} (ignored : BitVec 10) (hrd : rd ≠ 0) :
    RoundTrips cfg (.mopRr0 rd ignored) := by
  obtain ⟨hrow, hreg, hignored⟩ := mopRr_fields (base := 0x82004073) rfl rd ignored
  exact ⟨_, rfl, (decode32_mopRr0 (ne_of_eq_of_ne hreg hrd) cfg hrow).trans (by rw [hreg, hignored])⟩

theorem roundTrips_mopRr1 (cfg : Config) {rd : RegNum} (ignored : BitVec 10) (hrd : rd ≠ 0) :
    RoundTrips cfg (.mopRr1 rd ignored) := by
  obtain ⟨hrow, hreg, hignored⟩ := mopRr_fields (base := 0x86004073) rfl rd ignored
  exact ⟨_, rfl, (decode32_mopRr1 (ne_of_eq_of_ne hreg hrd) cfg hrow).trans (by rw [hreg, hignored])⟩

theorem roundTrips_lpcnl {cfg : Config} (nlpl : BitVec 10) (h : cfg.lpcnl.isSome = true) :
    RoundTrips cfg (.lpcnl nlpl) := by
  obtain ⟨e, he⟩ := Option.isSome_iff_exists.mp h
  obtain ⟨hpos, hsub, hfree, -⟩ := e.usable_iff.mp (Config.usable_of_lpcnl he)
  obtain ⟨hrow, hfield⟩ := match_or_place hsub hfree hpos nlpl
  exact ⟨.word (e.mat ||| place nlpl e.pos), by rw [encode, he, Option.map_some],
    (decode32_lpcnl he hrow).trans (by rw [hfield])⟩

theorem roundTrips_cJr {cfg : Config} {rs1 : RegNum} (hc : cfg.hasC = true) (hrs1 : rs1 ≠ 0) :
    RoundTrips cfg (.cJr rs1) := by
  obtain ⟨hrow, hreg⟩ := jumpParcel_fields 0b1000 rs1
  exact ⟨_, rfl, (decode16_cJr hc hrow (ne_of_eq_of_ne hreg hrs1)).trans (by rw [regOf16, hreg])⟩

theorem roundTrips_cJalr {cfg : Config} {rs1 : RegNum} (hc : cfg.hasC = true) (hrs1 : rs1 ≠ 0) :
    RoundTrips cfg (.cJalr rs1) := by
  obtain ⟨hrow, hreg⟩ := jumpParcel_fields 0b1001 rs1
  exact ⟨_, rfl, (decode16_cJalr hc hrow (ne_of_eq_of_ne hreg hrs1)).trans (by rw [regOf16, hreg])⟩

theorem roundTrips_cSlli {cfg : Config} (rd : RegNum) {shamt : BitVec 6} (hc : cfg.hasC = true)
    (hshamt : cfg.xlen = .rv32 → shamt.getLsbD 5 = false) : RoundTrips cfg (.cSlli rd shamt) := by
  obtain ⟨hrow, hreg, hhi, hlo⟩ := shiftParcel_fields (shamt.extractLsb' 5 1) rd (shamt.extractLsb' 0 5)
  refine ⟨_, rfl, (decode16_cSlli hc hrow ?_).trans ?_⟩
  · rintro ⟨hx, hbit⟩
    rw [BitVec.getLsbD_eq_extractLsb', hhi, ← BitVec.getLsbD_eq_extractLsb', hshamt hx] at hbit
    cases hbit
  · rw [regOf16, hreg, hhi, hlo, BitVec.extractLsb'_append_extractLsb']

/-- Settles O1, one lemma per form of instruction. -/
theorem decodeOfEncode : Obligations.DecodeOfEncode := by
  intro cfg i hwf
  cases i with
  | lpcll _ => exact roundTrips_label 0 Instr.lpcll rfl rfl rfl rfl (by decide)
  | lpcnl nlpl => exact roundTrips_lpcnl nlpl hwf
  | lpcml _ => exact roundTrips_label 1 Instr.lpcml rfl rfl rfl rfl (by decide)
  | lpcul _ => exact roundTrips_label 2 Instr.lpcul rfl rfl rfl rfl (by decide)
  | lpsll _ => cases hwf
  | lpsml _ => exact roundTrips_label 3 Instr.lpsml rfl rfl rfl rfl (by decide)
  | lpsul _ => exact roundTrips_label 4 Instr.lpsul rfl rfl rfl rfl (by decide)
  | mopRr0 _ ignored => exact roundTrips_mopRr0 cfg ignored (bne_iff_ne.mp hwf)
  | mopRr1 _ ignored => exact roundTrips_mopRr1 cfg ignored (bne_iff_ne.mp hwf)
  | lui rd imm20 => exact roundTrips_lui cfg rd imm20
  | addi rd rs1 imm12 => exact roundTrips_addi cfg rd rs1 imm12
  | jalr rd rs1 imm12 => exact roundTrips_jalr cfg rd rs1 imm12
  | cJr _ =>
    obtain ⟨hc, hrs1⟩ := Bool.and_eq_true_iff.mp hwf
    exact roundTrips_cJr hc (bne_iff_ne.mp hrs1)
  | cJalr _ =>
    obtain ⟨hc, hrs1⟩ := Bool.and_eq_true_iff.mp hwf
    exact roundTrips_cJalr hc (bne_iff_ne.mp hrs1)
  | cSlli rd _ =>
    obtain ⟨hc, hshamt⟩ := Bool.and_eq_true_iff.mp hwf
    exact roundTrips_cSlli rd hc fun hx => by simpa [hx] using hshamt
  | mret => exact roundTrips_of_inRow 8 rfl rfl rfl rfl
  | sret => exact roundTrips_of_inRow 9 rfl rfl rfl rfl

/-! Encoding what was decoded. -/

/-- A parcel of `C.JR` or `C.JALR` is its fixed bits with its register field between them. -/
theorem jumpParcel_of_fields {p mat : BitVec 16} (funct4 : BitVec 4) (h : p &&& 0xF07F = mat)
    (hfunct4 : mat.extractLsb' 12 4 = funct4) (hop : mat.extractLsb' 0 7 = 0b0000010#7) :
    funct4 ++ regOf16 p ++ 0b0000010#7 = p := by
  rw [← hfunct4, ← hop, ← extract_of_and h 12 4 rfl, ← extract_of_and h 0 7 rfl, regOf16,
    BitVec.extractLsb'_append_extractLsb'_eq_extractLsb' (by rfl), BitVec.extractLsb'_append_extractLsb']

/-- A parcel of `C.SLLI` is its fixed bits with its three fields between them. -/
theorem shiftParcel_of_fields {p : BitVec 16} (h : p &&& 0xE003 = 0x0002) :
    0b000#3 ++ p.extractLsb' 12 1 ++ regOf16 p ++ p.extractLsb' 2 5 ++ 0b10#2 = p := by
  have htop : p.extractLsb' 13 3 = 0b000#3 := extract_of_and h 13 3 rfl
  have hop : p.extractLsb' 0 2 = 0b10#2 := extract_of_and h 0 2 rfl
  rw [← htop, ← hop, regOf16, BitVec.extractLsb'_append_extractLsb'_eq_extractLsb' (by rfl),
    BitVec.extractLsb'_append_extractLsb'_eq_extractLsb' (by rfl),
    BitVec.extractLsb'_append_extractLsb'_eq_extractLsb' (by rfl), BitVec.extractLsb'_append_extractLsb']

theorem encode_of_decode16 {cfg : Config} {p : BitVec 16} {i : Instr} (h : decode16 cfg p = .instr i) :
    encode cfg i = some (.half p) := by
  obtain ⟨-, ⟨hp, -, rfl⟩ | ⟨hp, -, rfl⟩ | ⟨hp, -, rfl⟩⟩ := decode16_cases h
  · rw [encode, jumpParcel_of_fields 0b1000#4 hp rfl rfl]
  · rw [encode, jumpParcel_of_fields 0b1001#4 hp rfl rfl]
  · rw [encode, BitVec.extractLsb'_append_eq_left, BitVec.extractLsb'_append_eq_right, shiftParcel_of_fields hp]

section
variable {w mask mat : BitVec 32} (h : inRow w mask mat = true)
include h

theorem or_field_of_inRow {pos n : Nat} (hall : mask ||| place (BitVec.allOnes n) pos = BitVec.allOnes 32) :
    mat ||| place (w.extractLsb' pos n) pos = w := by
  rw [place_extract, or_and_of_inRow h hall]

theorem or_two_fields_of_inRow {pos n pos' n' : Nat}
    (hall : mask ||| (place (BitVec.allOnes n) pos ||| place (BitVec.allOnes n') pos') = BitVec.allOnes 32) :
    mat ||| place (w.extractLsb' pos n) pos ||| place (w.extractLsb' pos' n') pos' = w := by
  rw [place_extract, place_extract, BitVec.or_assoc, ← BitVec.and_or_distrib_left, or_and_of_inRow h hall]

end

theorem or_fields_of_iType {w mat : BitVec 32} (h : inRow w 0x0000707F mat = true) :
    mat ||| place (imm12Of w) 20 ||| place (rs1Of w) 15 ||| place (rdOf w) 7 = w := by
  rw [imm12Of, rs1Of, rdOf, place_extract, place_extract, place_extract, BitVec.or_assoc, BitVec.or_assoc,
    ← BitVec.and_or_distrib_left, ← BitVec.and_or_distrib_left, or_and_of_inRow h rfl]

theorem encode_of_decodeFallback32 {cfg : Config} {w : BitVec 32} {i : Instr} (h : decodeFallback32 cfg w = .instr i)
    (hnl : ∀ n, i ≠ .lpcnl n) : encode cfg i = some (.word w) := by
  obtain ⟨hw, -, rfl⟩ | ⟨hw, -, rfl⟩ | ⟨_, -, -, rfl⟩ := decodeFallback32_cases h
  · rw [encode, rdOf, or_two_fields_of_inRow hw rfl]
  · rw [encode, rdOf, or_two_fields_of_inRow hw rfl]
  · exact absurd rfl (hnl _)

theorem encode_of_decode32 {cfg : Config} {w : BitVec 32} {i : Instr} (h : decode32 cfg w = .instr i)
    (hnl : ∀ n, i ≠ .lpcnl n) : encode cfg i = some (.word w) := by
  rcases decode32_cases h with ⟨hw, rfl⟩ | ⟨hw, rfl⟩ | ⟨hw, rfl⟩ | ⟨hw, rfl⟩ | ⟨hw, rfl⟩ | ⟨hw, rfl⟩ | ⟨hw, rfl⟩ |
    ⟨hw, rfl⟩ | ⟨rfl, rfl⟩ | ⟨rfl, rfl⟩ | ⟨-, hf⟩
  iterate 5
    · rw [encode, or_field_of_inRow hw rfl]
  · rw [encode, rdOf, or_two_fields_of_inRow hw rfl]
  · rw [encode, or_fields_of_iType hw]
  · rw [encode, or_fields_of_iType hw]
  · rfl
  · rfl
  · exact encode_of_decodeFallback32 hf hnl

/-- Settles O2: a word is the fixed bits of its row with its fields placed again. -/
theorem encodeOfDecode : Obligations.EncodeOfDecode := by
  intro cfg w i hdecode
  refine ⟨decode_wf hdecode, fun hnl => ?_⟩
  cases w with
  | half p => exact encode_of_decode16 hdecode
  | word w => exact encode_of_decode32 hdecode hnl

/-! What no word selects. -/

theorem extract_lt_of_bit24 {w : BitVec 32} (h : w.extractLsb' 24 1 = 0#1) : (w.extractLsb' 15 10).toNat < 0x200 := by
  have hsplit : 0#1 ++ w.extractLsb' 15 9 = w.extractLsb' 15 10 := by
    rw [← h, BitVec.extractLsb'_append_extractLsb'_eq_extractLsb' (by rfl)]
  rw [← hsplit, BitVec.toNat_append]
  simpa using (w.extractLsb' 15 9).isLt

/-- Settles O4: the fixed bits of the `lpsll` figure are those of `lpcll`'s row and bit 24 = 0, and `lpsll` is not
well-formed. -/
theorem lpsllWordsAreLpcll : Obligations.LpsllWordsAreLpcll := by
  refine ⟨fun cfg w h => ⟨?_, ?_⟩, fun cfg => ⟨rfl, rfl⟩, fun cfg w v hdecode => nomatch decode_wf hdecode⟩
  · exact decode32_of_inRow cfg 0 rfl (inRow_of_subset ((inRow_iff _ _ _).mpr h) rfl rfl)
  · exact extract_lt_of_bit24 (extract_of_and h 24 1 rfl)

/-- Settles O5: `lpcnl` is well-formed only under a usable `LPCNL_ENC`. -/
theorem lpcnlNeedsItsEncoding : Obligations.LpcnlNeedsItsEncoding := by
  intro cfg w n hnone hdecode
  have hsome : cfg.lpcnl.isSome = true := decode_wf hdecode
  rw [Config.lpcnl_none hnone] at hsome
  cases hsome

end Sys2Proof
end

section
/-! PROOFS. Indirect jumps: where they lead, which of them expect a landing pad, and what that does to `ELP`. -/

namespace Sys2Proof.Machine

open Sys2Proof

/-! The target of `JALR` (R172). -/

/-- `XLEN` bits of a sum with a sign-extended immediate, as an integer (R171, R172). -/
theorem addImm_toNat (x : Xlen) (a : Word) (imm12 : BitVec 12) :
    ((addImm x a imm12).toNat : Int) = ((a.toNat : Int) + imm12.toInt) % (2 ^ x.bits : Nat) := by
  have hsext : ((imm12.signExtend 64).toNat : Int) = imm12.toInt % (2 ^ 64 : Nat) := by
    rw [BitVec.signExtend, BitVec.toNat_ofInt]
    omega
  rw [addImm, wrap_toNat, BitVec.toNat_add, mod_word, sextImm12, wrap_toNat]
  cases x <;> simp only [Xlen.bits] <;> omega

theorem State.addImm_reg_toNat (s : State) (rs1 : RegNum) (imm12 : BitVec 12) :
    ((addImm s.cfg.xlen (s.reg rs1) imm12).toNat : Int) = s.sumImm rs1 imm12 :=
  addImm_toNat _ _ _

/-- Bit 1 of the target, which must be 0 without `HAS_C`, is bit 1 of the sum (R172). -/
theorem State.jalrTarget_bit1 (s : State) (rs1 : RegNum) (imm12 : BitVec 12) :
    (jalrTarget s.cfg.xlen (s.reg rs1) imm12).getLsbD 1 = true ↔ s.sumImm rs1 imm12 / 2 % 2 = 1 := by
  rw [← s.addImm_reg_toNat, jalrTarget, BitVec.getLsbD, Nat.testBit_eq_decide_div_mod_eq, clearBit0_toNat,
    decide_eq_true_eq]
  omega

/-! The jumps. -/

/-- A jump completes if, should it be a `JALR`, its target may be jumped to (R172, R43). -/
def State.jumpCompletes (s : State) (i : Instr) : Prop :=
  ∀ rd rs1 imm12, i = .jalr rd rs1 imm12 → s.cfg.hasC = true ∨ s.sumImm rs1 imm12 / 2 % 2 = 0

/-- A jump that completes sets the pc, links into a register (`x0` for `C.JR`) and updates `ELP` (R172 to R174). -/
theorem exec_of_jumpCompletes {s : State} {i : Instr} {rs1 : RegNum} (hjump : jumpRs1 i = some rs1)
    (hdone : s.jumpCompletes i) :
    ∃ target rd link, exec i s = .next (((s.setPc target).setReg rd link).expectPad i) := by
  cases i with
  | jalr rd rs1 imm12 =>
    refine ⟨_, rd, _, if_neg ?_⟩
    rintro ⟨hc, hbit⟩
    rw [s.jalrTarget_bit1] at hbit
    obtain hC | heven := hdone rd rs1 imm12 rfl
    · simp [hC] at hc
    · omega
  | cJr rs1 => exact ⟨_, 0, 0, rfl⟩
  | cJalr rs1 => exact ⟨_, 1, _, rfl⟩
  | _ => exact nomatch hjump

/-! Which jumps expect a landing pad (R90). -/

/-- Only the three jumps have an `rs1` for `is_lp_expected` to look at. -/
theorem jumpRs1_eq_some {i : Instr} {rs1 : RegNum} (h : jumpRs1 i = some rs1) :
    (∃ rd imm12, i = .jalr rd rs1 imm12) ∨ i = .cJr rs1 ∨ i = .cJalr rs1 := by
  cases i with
  | jalr rd _ imm12 => cases h; exact .inl ⟨rd, imm12, rfl⟩
  | cJr _ => cases h; exact .inr (.inl rfl)
  | cJalr _ => cases h; exact .inr (.inr rfl)
  | _ => exact nomatch h

theorem isLpExpected_iff (i : Instr) :
    isLpExpected i = true ↔ (∃ rs1, jumpRs1 i = some rs1 ∧ rs1 ≠ 1 ∧ rs1 ≠ 5) ∧ isSwGuardedJump i = false := by
  cases h : jumpRs1 i <;> simp [isLpExpected, isIndirectCallJump, h]

/-- Settles O10: `is_lp_expected` in each of the three jumps, which alone have an `rs1`. -/
theorem lpExpectedPredicate : Obligations.LpExpectedPredicate := by
  refine ⟨fun rd rs1 imm12 => ?_, fun rs1 => ?_, fun rs1 => ?_, fun i h => ?_⟩
  · simp [isLpExpected_iff, jumpRs1, isSwGuardedJump, and_assoc]
  · simp [isLpExpected_iff, jumpRs1, isSwGuardedJump]
  · simp [isLpExpected_iff, jumpRs1, isSwGuardedJump]
  · obtain ⟨⟨rs1, hjump, -, -⟩, -⟩ := (isLpExpected_iff i).mp h
    obtain ⟨rd, imm12, rfl⟩ | rfl | rfl := jumpRs1_eq_some hjump
    · exact .inl ⟨rd, rs1, imm12, rfl⟩
    · exact .inr (.inl ⟨rs1, rfl⟩)
    · exact .inr (.inr ⟨rs1, rfl⟩)

/-- A jump through `x1` or `x5` expects no landing pad (R90, R98). -/
theorem isLpExpected_eq_false {i : Instr} {rs1 : RegNum} (hjump : jumpRs1 i = some rs1) (hlink : rs1 = 1 ∨ rs1 = 5) :
    isLpExpected i = false := by
  rw [Bool.eq_false_iff, Ne, isLpExpected_iff, hjump]
  rintro ⟨⟨_, ⟨⟩, h1, h5⟩, -⟩
  exact hlink.elim h1 h5

/-! `ELP` after a jump (R91 to R93, R98). -/

/-- A jump that expects no landing pad has no CFI side effect. -/
theorem State.expectPad_of_not_expected (s : State) {i : Instr} (h : isLpExpected i = false) : s.expectPad i = s := by
  simp [State.expectPad, h]

/-- An active jump that expects a landing pad makes one due. -/
theorem State.expectPad_padDue {s : State} {i : Instr} (hact : s.xfcfie = true) (h : isLpExpected i = true) :
    (s.expectPad i).padDue := by
  simp [State.padDue, State.expectPad_elp, hact, h]

/-- The landing pad requirement reads of the state whether CFI is active and `ELP`. -/
theorem State.padMissing_congr {s t : State} (hact : t.xfcfie = s.xfcfie) (help : t.elp = s.elp) (d : Decoded) :
    t.padMissing d = s.padMissing d := by
  simp only [State.padMissing, hact, help]

/-- Settles O26: the jump completes, and without CFI side effect both `xFCFIE` and `ELP` are as before. -/
theorem returnsAreOutside : Obligations.ReturnsAreOutside := by
  intro s i rd rs1 imm12 hi hlink haligned
  have hjump : jumpRs1 i = some rs1 := by obtain rfl | rfl | rfl := hi <;> rfl
  have hdone : s.jumpCompletes i := by
    rintro rd' rs1' imm12' rfl
    obtain h | h | h := hi
    · cases h; exact haligned
    · cases h
    · cases h
  obtain ⟨target, r, link, hexec⟩ := exec_of_jumpCompletes hjump hdone
  rw [State.expectPad_of_not_expected _ (isLpExpected_eq_false hjump hlink)] at hexec
  exact ⟨_, hexec, by simp, State.padMissing_congr (by simp) (by simp)⟩

end Sys2Proof.Machine
end

section
/-! PROOFS. The order of a step (R96) and the landing pad requirement (R95): what runs while a landing pad is due. -/

namespace Sys2Proof.Machine

open Sys2Proof

/-! What a trap saves and leaves alone (R195, R196). -/

@[simp] theorem State.takeTrap_regs (s : State) (c : Cause) : (s.takeTrap c).regs = s.regs := by
  obtain ⟨-, h, -⟩ := s.takeTrap_keeps c
  exact h

@[simp] theorem State.takeTrap_reg (s : State) (c : Cause) (r : RegNum) : (s.takeTrap c).reg r = s.reg r := by
  simp [State.reg]

/-- A trap from M records `ELP` in `MPELP`, the pc in `mepc` and its cause in `mcause`. -/
theorem State.takeTrap_saves_m {s : State} (c : Cause) (hm : s.priv = .m) :
    (s.takeTrap c).mstatus.mpelp = s.elp ∧ (s.takeTrap c).mtrap.epc = s.pc ∧ (s.takeTrap c).mtrap.cause = c := by
  rw [s.takeTrap_of_m c hm]
  exact ⟨rfl, rfl, rfl⟩

/-- A trap at the head of a step clears `ELP`, writes no register and, from M, saves `ELP` and the pc. -/
theorem State.popInput_takeTrap (s : State) (c : Cause) :
    (s.popInput.takeTrap c).elp = .noLpExpected ∧ SameRegs s (s.popInput.takeTrap c) ∧
    (s.priv = .m → (s.popInput.takeTrap c).mstatus.mpelp = s.elp ∧ (s.popInput.takeTrap c).mtrap.epc = s.pc) := by
  refine ⟨s.popInput.takeTrap_elp c, s.popInput.takeTrap_reg c, fun hm => ?_⟩
  obtain ⟨help, hpc, -⟩ := State.takeTrap_saves_m (s := s.popInput) c hm
  exact ⟨help, hpc⟩

/-! The lines of R96, each as an equation for the step. -/

theorem step_of_irq {s : State} {code : BitVec 6} (hirq : s.input.irq = some code) :
    step s = .next (s.popInput.takeTrap (Cause.ofIrq code)) := by
  simp [step, stepWith, hirq]

theorem step_of_fetchFault {s : State} {f : FetchFault} (hirq : s.input.irq = none)
    (hfault : s.input.fetchFault = some f) : step s = .next (s.popInput.takeTrap f.cause) := by
  simp [step, stepWith, hirq, hfault]

theorem step_of_padMissing {s : State} {w : InstWord} (hirq : s.input.irq = none) (hfault : s.input.fetchFault = none)
    (hfetch : s.fetch = some w) (hmiss : s.padMissing (decode s.cfg w) = true) :
    step s = .next s.popInput.raiseIllegal := by
  have hmiss : s.popInput.padMissing (decode s.cfg w) = true := hmiss
  simp [step, stepWith, runFetched, hirq, hfault, hfetch, hmiss]

/-- Settles O38: R96 lines 3 to 6, for the word that is fetched. -/
theorem stepRunsDecoded : Obligations.StepRunsDecoded := by
  intro s w i hirq hfault hfetch hdecode hpad
  exact step_of_runs ⟨hirq, hfault, w, hfetch, hdecode⟩ hpad

/-- Settles O39: both inputs lead to a trap of the state with its input consumed. -/
theorem interruptThenFetchException : Obligations.InterruptThenFetchException := by
  intro s
  exact ⟨fun code hirq => ⟨_, step_of_irq hirq, rfl, s.popInput_takeTrap _⟩,
    fun f hirq hfault => ⟨_, step_of_fetchFault hirq hfault, rfl, s.popInput_takeTrap _⟩⟩

/-- Settles O40: the landing pad requirement fails on every answer of the decoder that is no `lpcll`. -/
theorem missingPadTraps : Obligations.MissingPadTraps := by
  intro s w ⟨hact, help⟩ hirq hfault hfetch hother
  have hno : isLpcll (decode s.cfg w) = false := by
    rw [Bool.eq_false_iff, Ne, isLpcll_iff]
    rintro ⟨flpl, hpad⟩
    exact hother flpl hpad
  have hmiss : s.padMissing (decode s.cfg w) = true := (s.padMissing_iff _).mpr ⟨hact, help, hno⟩
  refine ⟨_, step_of_padMissing hirq hfault hfetch hmiss, rfl, s.popInput.takeTrap_reg _,
    s.popInput.takeTrap_lpl _, ?_⟩
  rw [← help]
  exact State.takeTrap_saves_m (s := s.popInput) _

/-! The landing pad that runs (R110, R111). -/

/-- An active `lpcll` traps, or it is aligned with a label that passes, clears `ELP` and moves on. -/
theorem execLpcll_cases {s t : State} {flpl : BitVec 10} (hact : s.xfcfie = true) (h : execLpcll flpl s = .next t) :
    t = s.takeTrap Cause.illegalInstruction ∨
    (aligned4 s.pc = true ∧ (flpl = 0 ∨ flpl = firstLabel (s.reg 7)) ∧ t = (s.setElp .noLpExpected).advance 4) := by
  rw [execLpcll, if_pos hact] at h
  split at h
  · cases h; exact .inl rfl
  rename_i haligned
  split at h
  · cases h; exact .inl rfl
  rename_i hlabel
  cases h
  refine .inr ⟨Bool.eq_true_of_not_eq_false haligned, ?_, rfl⟩
  by_cases h0 : flpl = 0
  · exact .inl h0
  · exact .inr (by_contra fun hne => hlabel ⟨hne, h0⟩)

/-- A change of `ELP` and the pc leaves everything else as it was. -/
theorem State.frame_setElp_advance (s : State) (e : Elp) (n : Nat) : Frame s ((s.setElp e).advance n) where
  memory    := fun _ => rfl
  csrs      := ⟨rfl, rfl, rfl, rfl, rfl, rfl, rfl, rfl, rfl, rfl⟩
  priv      := rfl
  virt      := rfl
  cfg       := rfl
  inputs    := rfl
  targets   := rfl
  freeCount := rfl

theorem State.pcMoved_advance (s : State) (n : Nat) : PcMoved n s (s.advance n) := pcPlus_toNat _ _ _

/-- While a landing pad is due, a step that takes no trap runs a valid landing pad (R95, R111). -/
theorem step_cases_of_padDue {s t : State} (hdue : s.padDue) (h : step s = .next t) :
    (∃ c, t = s.popInput.takeTrap c) ∨ (s.atPad ∧ t = (s.popInput.setElp .noLpExpected).advance 4) := by
  obtain ⟨code, -, ht⟩ | ⟨-, f, -, ht⟩ | ⟨-, -, w, -, -, ht⟩ | ⟨-, -, w, i, hfetch, hdecode, hgo, hexec⟩ := step_cases h
  · exact .inl ⟨_, ht⟩
  · exact .inl ⟨_, ht⟩
  · exact .inl ⟨_, ht⟩
  obtain ⟨hact, help⟩ := hdue
  have hpad : isLpcll (.instr i) = true := by
    by_contra hno
    have hmiss : s.popInput.padMissing (.instr i) = true :=
      (s.popInput.padMissing_iff _).mpr ⟨hact, help, Bool.eq_false_of_not_eq_true hno⟩
    simp [hgo] at hmiss
  obtain ⟨flpl, ⟨⟩⟩ := (isLpcll_iff _).mp hpad
  obtain ht | ⟨haligned, hlabel, ht⟩ := execLpcll_cases (s := s.popInput) hact hexec
  · exact .inl ⟨_, ht⟩
  · exact .inr ⟨⟨haligned, w, flpl, hfetch, hdecode, hlabel⟩, ht⟩

/-- Settles O41: what the landing pad that runs changes is `ELP` and the pc. -/
theorem onlyPadRunsWhenDue : Obligations.OnlyPadRunsWhenDue := by
  intro s t hdue hstep
  obtain htrap | ⟨hpad, rfl⟩ := step_cases_of_padDue hdue hstep
  · exact .inl htrap
  · exact .inr ⟨hpad, rfl, State.pcMoved_advance (s.popInput.setElp .noLpExpected) 4, fun _ => rfl, rfl,
      s.popInput.frame_setElp_advance .noLpExpected 4⟩

/-- Settles O42: the jump makes a landing pad due, so only a valid one can run next. -/
theorem jumpLandsOnPadOrTraps : Obligations.JumpLandsOnPadOrTraps := by
  intro s i hact help hrun hexpected hdone
  have hnotDue : ¬ s.padDue := fun ⟨_, hdue⟩ => nomatch help.symm.trans hdue
  obtain ⟨⟨rs1, hjump, -, -⟩, -⟩ := (isLpExpected_iff i).mp hexpected
  obtain ⟨target, rd, link, hexec⟩ := exec_of_jumpCompletes (s := s.popInput) hjump hdone
  have hdue : (((s.popInput.setPc target).setReg rd link).expectPad i).padDue :=
    State.expectPad_padDue (by simpa using hact) hexpected
  refine ⟨_, (step_of_runs hrun (.inl hnotDue)).trans hexec, hdue, fun u hnext => ?_⟩
  obtain htrap | ⟨hpad, help', hpc, hregs, -⟩ := onlyPadRunsWhenDue _ u hdue hnext
  · exact .inl htrap
  · exact .inr ⟨hpad, help', hpc, hregs⟩

end Sys2Proof.Machine
end

section
/-! PROOFS. The checks of `lpcll` and `lpcnl` while CFI is active: the labels as numbers, and each outcome. -/

namespace Sys2Proof.Machine

open Sys2Proof

/-! The labels of `x7` as numbers (R110, R113). -/

/-- A field of a word is the number that division and remainder cut out. -/
theorem extractLsb'_eq_iff (v : Word) (p : Nat) {n : Nat} (l : BitVec n) :
    l = v.extractLsb' p n ↔ l.toNat = v.toNat / 2 ^ p % 2 ^ n := by
  rw [← BitVec.toNat_inj, BitVec.extractLsb'_toNat, Nat.shiftRight_eq_div_pow]

theorem State.eq_firstLabel_iff (s : State) (l : BitVec 10) : l = firstLabel (s.reg 7) ↔ l.toNat = s.firstLabelNum :=
  extractLsb'_eq_iff _ _ _

theorem State.eq_nextLabel_iff (s : State) (l : BitVec 10) : l = nextLabel (s.reg 7) ↔ l.toNat = s.nextLabelNum :=
  extractLsb'_eq_iff _ _ _

/-! The outcomes of `lpcll` (R110 to R112). -/

/-- An `lpcll` with this label passes its checks here: aligned pc, and label 0 or `x7[31:22]` (R110). -/
def State.padPasses (s : State) (flpl : BitVec 10) : Prop :=
  s.pc.toNat % 4 = 0 ∧ (flpl = 0 ∨ flpl.toNat = s.firstLabelNum)

theorem exec_lpcll_of_padPasses {s : State} {flpl : BitVec 10} (hact : s.xfcfie = true) (h : s.padPasses flpl) :
    exec (.lpcll flpl) s = .next ((s.setElp .noLpExpected).advance 4) := by
  obtain ⟨haligned, hlabel⟩ := h
  rw [← aligned4_iff] at haligned
  rw [← s.eq_firstLabel_iff] at hlabel
  have hpass : ¬ (flpl ≠ firstLabel (s.reg 7) ∧ flpl ≠ 0) := fun ⟨hne, h0⟩ => hlabel.elim h0 hne
  rw [exec, execLpcll, if_pos hact, if_neg (by simp [haligned]), if_neg hpass]

theorem exec_lpcll_of_not_padPasses {s : State} {flpl : BitVec 10} (hact : s.xfcfie = true) (h : ¬ s.padPasses flpl) :
    exec (.lpcll flpl) s = .next s.raiseIllegal := by
  rw [State.padPasses, ← aligned4_iff, ← s.eq_firstLabel_iff] at h
  cases haligned : aligned4 s.pc with
  | false => rw [exec, execLpcll, if_pos hact, if_pos haligned]
  | true =>
    have hfail : flpl ≠ firstLabel (s.reg 7) ∧ flpl ≠ 0 :=
      ⟨fun heq => h ⟨haligned, .inr heq⟩, fun h0 => h ⟨haligned, .inl h0⟩⟩
    rw [exec, execLpcll, if_pos hact, if_neg (by simp [haligned]), if_pos hfail]

/-- Settles O11: a landing pad that passes changes `ELP` and the pc. -/
theorem lpcllLands : Obligations.LpcllLands := by
  intro s flpl hact haligned hlabel
  exact ⟨_, exec_lpcll_of_padPasses hact ⟨haligned, hlabel⟩, rfl, (s.setElp .noLpExpected).pcMoved_advance 4,
    fun _ => rfl, rfl, s.frame_setElp_advance .noLpExpected 4⟩

/-- Settles O12: either failed check is the trap, which keeps the registers and `lpl` and from M saves `ELP`. -/
theorem lpcllTraps : Obligations.LpcllTraps := by
  intro s flpl hact hfail
  have hno : ¬ s.padPasses flpl := by
    rintro ⟨haligned, hlabel⟩
    obtain hmis | ⟨h0, hne⟩ := hfail
    · exact hmis haligned
    · exact hlabel.elim h0 hne
  refine ⟨exec_lpcll_of_not_padPasses hact hno, s.takeTrap_reg _, s.takeTrap_lpl _, fun hm => ?_⟩
  obtain ⟨help, hpc, -⟩ := State.takeTrap_saves_m Cause.illegalInstruction hm
  exact ⟨help, hpc⟩

/-! The outcomes of `lpcnl` (R113). -/

/-- Moving on by 4 is what `x[0] <- 0; pc <- pc + 4` does (R162). -/
theorem State.noOp_advance (s : State) : NoOp s (s.advance 4) where
  regs  := fun _ => rfl
  pc    := s.pcMoved_advance 4
  elp   := rfl
  lpl   := rfl
  frame := s.frame_setElp_advance s.elp 4

/-- An active `lpcnl` looks at nothing but the label of `x7`. -/
theorem exec_lpcnl_of_active {s : State} (nlpl : BitVec 10) (hact : s.xfcfie = true) :
    exec (.lpcnl nlpl) s = .next (if nlpl.toNat = s.nextLabelNum then s.advance 4 else s.raiseIllegal) := by
  simp only [exec, execLpcnl, if_pos hact, ← s.eq_nextLabel_iff]
  by_cases h : nlpl = nextLabel (s.reg 7)
  · rw [if_neg (not_not.mpr h), if_pos h]
  · rw [if_pos h, if_neg h]

/-- Settles O13: the two branches of the one comparison. -/
theorem lpcnlChecksNextLabel : Obligations.LpcnlChecksNextLabel := by
  intro s nlpl hact
  refine ⟨fun heq => ⟨s.advance 4, ?_, s.noOp_advance⟩, fun hne => ?_⟩
  · rw [exec_lpcnl_of_active nlpl hact, if_pos heq]
  · rw [exec_lpcnl_of_active nlpl hact, if_neg hne]

end Sys2Proof.Machine
end

section
/-! PROOFS. `lpcml` and `lpcul` while CFI is active: one label check, run on two fields of `lpl`. -/

namespace Sys2Proof.Machine

open Sys2Proof

/-! The outcomes of an active label check (R130, R131). -/

theorem State.checkLabel_of_eq {s : State} {field imm : BitVec 8} (hact : s.xfcfie = true) (h : field = imm) :
    s.checkLabel field imm = s.advance 4 := by
  rw [State.checkLabel, if_pos hact, if_neg (not_not.mpr h)]

theorem State.checkLabel_of_ne {s : State} {field imm : BitVec 8} (hact : s.xfcfie = true) (h : field ≠ imm) :
    s.checkLabel field imm = s.raiseIllegal := by
  rw [State.checkLabel, if_pos hact, if_pos h]

/-- An instruction that is a label check and nothing else moves on when the labels agree and traps when they differ. -/
theorem exec_of_checkLabel {s : State} {i : Instr} {field imm : BitVec 8} (hact : s.xfcfie = true)
    (hexec : exec i s = .next (s.checkLabel field imm)) :
    (field = imm → ∃ t, exec i s = .next t ∧ NoOp s t) ∧ (field ≠ imm → exec i s = .next s.raiseIllegal) := by
  refine ⟨fun heq => ⟨s.advance 4, ?_, s.noOp_advance⟩, fun hne => ?_⟩
  · rw [hexec, State.checkLabel_of_eq hact heq]
  · rw [hexec, State.checkLabel_of_ne hact hne]

theorem exec_lpcml (mlpl : BitVec 8) (s : State) : exec (.lpcml mlpl) s = .next (s.checkLabel s.lpl.ml mlpl) := rfl

theorem exec_lpcul (ulpl : BitVec 8) (s : State) : exec (.lpcul ulpl) s = .next (s.checkLabel s.lpl.ul ulpl) := rfl

/-- Settles O14: the label check on `lpl.ML`. -/
theorem lpcmlChecksMiddleLabel : Obligations.LpcmlChecksMiddleLabel :=
  fun s mlpl hact => exec_of_checkLabel hact (exec_lpcml mlpl s)

/-- Settles O15: the label check on `lpl.UL`. -/
theorem lpculChecksUpperLabel : Obligations.LpculChecksUpperLabel :=
  fun s ulpl hact => exec_of_checkLabel hact (exec_lpcul ulpl s)

end Sys2Proof.Machine
end

section
/-! PROOFS. `lpsll`, `lpsml` and `lpsul` while CFI is active: one operation, run with three contents of `lpl`. -/

namespace Sys2Proof.Machine

open Sys2Proof

/-! What setting `lpl` and moving on leaves unchanged (R140 to R142). -/

theorem State.frame_setLpl_advance (s : State) (l : Lpl) (n : Nat) : Frame s ((s.setLpl l).advance n) where
  memory    := fun _ => rfl
  csrs      := ⟨rfl, rfl, rfl, rfl, rfl, rfl, rfl, rfl, rfl, rfl⟩
  priv      := rfl
  virt      := rfl
  cfg       := rfl
  inputs    := rfl
  targets   := rfl
  freeCount := rfl

/-- Whatever `lpl` becomes, nothing else changes but the pc. -/
theorem State.setLpl_advance_keeps (s : State) (l : Lpl) :
    PcMoved 4 s ((s.setLpl l).advance 4) ∧ SameRegs s ((s.setLpl l).advance 4) ∧
    ((s.setLpl l).advance 4).elp = s.elp ∧ Frame s ((s.setLpl l).advance 4) :=
  ⟨(s.setLpl l).pcMoved_advance 4, fun _ => rfl, rfl, s.frame_setLpl_advance l 4⟩

/-! The contents of `lpl` that each of the three sets. -/

theorem State.setLabel_of_active {s : State} (l : Lpl) (hact : s.xfcfie = true) :
    s.setLabel l = (s.setLpl l).advance 4 := by
  rw [State.setLabel, if_pos hact]

theorem exec_lpsll_of_active {s : State} (llpl : BitVec 9) (hact : s.xfcfie = true) :
    exec (.lpsll llpl) s = .next ((s.setLpl ⟨llpl, 0, 0⟩).advance 4) := by
  rw [exec, execLpsll, State.setLabel_of_active _ hact]

theorem exec_lpsml_of_active {s : State} (mlpl : BitVec 8) (hact : s.xfcfie = true) :
    exec (.lpsml mlpl) s = .next ((s.setLpl { s.lpl with ml := mlpl }).advance 4) := by
  rw [exec, execLpsml, State.setLabel_of_active _ hact]

theorem exec_lpsul_of_active {s : State} (ulpl : BitVec 8) (hact : s.xfcfie = true) :
    exec (.lpsul ulpl) s = .next ((s.setLpl { s.lpl with ul := ulpl }).advance 4) := by
  rw [exec, execLpsul, State.setLabel_of_active _ hact]

/-- Settles O16: each of the three gives `lpl` a new content and moves on. -/
theorem labelSetResults : Obligations.LabelSetResults := by
  intro s hact
  refine ⟨fun llpl => ?lower, fun mlpl => ?middle, fun ulpl => ?upper⟩
  case lower => exact ⟨_, exec_lpsll_of_active llpl hact, rfl, rfl, rfl, s.setLpl_advance_keeps _⟩
  case middle => exact ⟨_, exec_lpsml_of_active mlpl hact, rfl, rfl, rfl, s.setLpl_advance_keeps _⟩
  case upper => exact ⟨_, exec_lpsul_of_active ulpl hact, rfl, rfl, rfl, s.setLpl_advance_keeps _⟩

end Sys2Proof.Machine
end

section
/-! PROOFS. The Zimop fallback: every CFI instruction while CFI is not active, and `mop.rr.0` and `mop.rr.1` always. -/

namespace Sys2Proof.Machine

open Sys2Proof

/-! A CFI instruction while CFI is not active (R162). -/

theorem State.checkLabel_of_inactive {s : State} (field imm : BitVec 8) (hact : ¬ s.xfcfie = true) :
    s.checkLabel field imm = s.advance 4 := by
  rw [State.checkLabel, if_neg hact, State.zimopFallback_zero]

theorem State.setLabel_of_inactive {s : State} (l : Lpl) (hact : ¬ s.xfcfie = true) : s.setLabel l = s.advance 4 := by
  rw [State.setLabel, if_neg hact, State.zimopFallback_zero]

/-- The `else` branches of R110, R113, R130, R131 and R140 to R142 are one. -/
theorem exec_cfi_of_inactive {s : State} {i : Instr} (hcfi : isCfi i = true) (hact : ¬ s.xfcfie = true) :
    exec i s = .next (s.advance 4) := by
  cases i with
  | lpcll flpl => rw [exec, execLpcll, if_neg hact, State.zimopFallback_zero]
  | lpcnl nlpl => rw [exec, execLpcnl, if_neg hact, State.zimopFallback_zero]
  | lpcml mlpl => rw [exec_lpcml, State.checkLabel_of_inactive _ _ hact]
  | lpcul ulpl => rw [exec_lpcul, State.checkLabel_of_inactive _ _ hact]
  | lpsll llpl => rw [exec, execLpsll, State.setLabel_of_inactive _ hact]
  | lpsml mlpl => rw [exec, execLpsml, State.setLabel_of_inactive _ hact]
  | lpsul ulpl => rw [exec, execLpsul, State.setLabel_of_inactive _ hact]
  | _ => exact nomatch hcfi

/-- Settles O17: each of the seven moves on by 4. -/
theorem inactiveCfiIsNoOp : Obligations.InactiveCfiIsNoOp := by
  intro s i hcfi hoff
  have hact : ¬ s.xfcfie = true := by simp [hoff]
  exact ⟨s.advance 4, exec_cfi_of_inactive hcfi hact, s.noOp_advance⟩

/-! A register write that moves on: what it writes and what it leaves unchanged. -/

theorem State.frame_setReg_advance (s : State) (rd : RegNum) (v : Word) (n : Nat) :
    Frame s ((s.setReg rd v).advance n) where
  memory    := fun a => congrArg (Memory.read · a) (s.setReg_mem rd v)
  csrs      :=
    { mseccfg  := s.setReg_mseccfg rd v
      menvcfg  := s.setReg_menvcfg rd v
      henvcfg  := s.setReg_henvcfg rd v
      mstatus  := s.setReg_mstatus rd v
      vsstatus := s.setReg_vsstatus rd v
      hstatus  := s.setReg_hstatus rd v
      mtrap    := s.setReg_mtrap rd v
      strap    := s.setReg_strap rd v
      vstrap   := s.setReg_vstrap rd v
      deleg    := s.setReg_deleg rd v }
  priv      := s.setReg_priv rd v
  virt      := s.setReg_virt rd v
  cfg       := s.setReg_cfg rd v
  inputs    := s.setReg_inputs rd v
  targets   := s.setReg_targets rd v
  freeCount := s.setReg_freeCount rd v

theorem State.regWritten_setReg_advance (s : State) (rd : RegNum) (v : Word) (n : Nat) :
    RegWritten rd v.toNat s ((s.setReg rd v).advance n) where
  dest   := fun hrd => congrArg BitVec.toNat (s.reg_setReg_same rd v hrd)
  x0     := State.reg_zero _
  others := fun r hr => s.reg_setReg_other rd r v hr

theorem State.pcMoved_setReg_advance (s : State) (rd : RegNum) (v : Word) (n : Nat) :
    PcMoved n s ((s.setReg rd v).advance n) := by
  have h := (s.setReg rd v).pcMoved_advance n
  rwa [PcMoved, State.setReg_pc, State.setReg_cfg] at h

/-- Writing a register and moving on does nothing else. -/
theorem State.setReg_advance_writes (s : State) (rd : RegNum) (v : Word) (n : Nat) :
    RegWritten rd v.toNat s ((s.setReg rd v).advance n) ∧ PcMoved n s ((s.setReg rd v).advance n) ∧
    ((s.setReg rd v).advance n).elp = s.elp ∧ ((s.setReg rd v).advance n).lpl = s.lpl ∧
    Frame s ((s.setReg rd v).advance n) :=
  ⟨s.regWritten_setReg_advance rd v n, s.pcMoved_setReg_advance rd v n, s.setReg_elp rd v, s.setReg_lpl rd v,
    s.frame_setReg_advance rd v n⟩

/-! `mop.rr.0` and `mop.rr.1` (R160, R161). -/

theorem exec_mopRr0 (rd : RegNum) (ignored : BitVec 10) (s : State) :
    exec (.mopRr0 rd ignored) s = .next ((s.setReg rd 0).advance 4) := rfl

theorem exec_mopRr1 (rd : RegNum) (ignored : BitVec 10) (s : State) :
    exec (.mopRr1 rd ignored) s = .next ((s.setReg rd 0).advance 4) := rfl

/-- Settles O18: both are a write of 0 that moves on by 4. -/
theorem mopRrWritesZero : Obligations.MopRrWritesZero := by
  intro s rd ignored i hi
  refine ⟨(s.setReg rd 0).advance 4, ?_, s.setReg_advance_writes rd 0 4⟩
  obtain rfl | rfl := hi
  · exact exec_mopRr0 rd ignored s
  · exact exec_mopRr1 rd ignored s

end Sys2Proof.Machine
end

section
/-! PROOFS. `LUI`, `ADDI` and `C.SLLI`: each is a register write that moves on; what differs is the value, as a number. -/

namespace Sys2Proof.Machine

open Sys2Proof

/-! The value of `LUI` (R170). -/

/-- A sign-extended value modulo `2^XLEN`, as an integer. -/
theorem wrap_signExtend_toNat (x : Xlen) {n : Nat} (v : BitVec n) :
    ((wrap x (v.signExtend 64)).toNat : Int) = v.toInt % (2 ^ x.bits : Nat) := by
  rw [wrap_toNat, BitVec.signExtend, BitVec.toNat_ofInt]
  cases x <;> simp only [Xlen.bits] <;> omega

theorem luiValue_toNat (x : Xlen) (imm20 : BitVec 20) :
    ((luiValue x imm20).toNat : Int) = imm20.toInt * 4096 % (2 ^ x.bits : Nat) := by
  rw [luiValue, wrap_signExtend_toNat, BitVec.toInt_append_zero, mul_comm]
  rfl

/-! The three instructions. -/

theorem exec_lui (rd : RegNum) (imm20 : BitVec 20) (s : State) :
    exec (.lui rd imm20) s = .next ((s.setReg rd (luiValue s.cfg.xlen imm20)).advance 4) := rfl

theorem exec_addi (rd rs1 : RegNum) (imm12 : BitVec 12) (s : State) :
    exec (.addi rd rs1 imm12) s = .next ((s.setReg rd (addImm s.cfg.xlen (s.reg rs1) imm12)).advance 4) := rfl

theorem exec_cSlli (rd : RegNum) (shamt : BitVec 6) (s : State) :
    exec (.cSlli rd shamt) s = .next ((s.setReg rd (shiftLeft s.cfg.xlen (s.reg rd) shamt)).advance 2) := rfl

/-- Settles O19: the row of `LUI` (the one at 5) reads its words, and the write is of `luiValue`. -/
theorem luiResult : Obligations.LuiResult := by
  refine ⟨fun cfg w h => ?encoding, fun s rd imm20 => ?result⟩
  case encoding => exact decode32_of_inRow cfg 5 rfl ((inRow_iff _ _ _).mpr h)
  case result =>
    exact ⟨_, _, exec_lui rd imm20 s, luiValue_toNat _ imm20, s.setReg_advance_writes rd _ 4⟩

/-- Settles O20: the row of `ADDI` (the one at 6) reads its words, and the write is of the sum of R171. -/
theorem addiResult : Obligations.AddiResult := by
  refine ⟨fun cfg w h => ?encoding, fun s rd rs1 imm12 => ?result⟩
  case encoding => exact decode32_of_inRow cfg 6 rfl ((inRow_iff _ _ _).mpr h)
  case result =>
    exact ⟨_, _, exec_addi rd rs1 imm12 s, s.addImm_reg_toNat rs1 imm12, s.setReg_advance_writes rd _ 4⟩

/-- Settles O21: the write is of the shifted value, which is the product modulo `2^XLEN`. -/
theorem cSlliResult : Obligations.CSlliResult := by
  intro s rd shamt
  rw [← shiftLeft_toNat]
  exact ⟨_, exec_cSlli rd shamt s, s.setReg_advance_writes rd _ 2⟩

end Sys2Proof.Machine
end

section
/-! PROOFS. `JALR`, `C.JR` and `C.JALR`: target, link register, `ELP` and frame of a jump that completes, and the trap of
one that does not. -/

namespace Sys2Proof.Machine

open Sys2Proof

/-! What a completed jump does (R172 to R174), whichever of the three it is. -/

/-- The state after the jump `i` to `target` with `link` written to `rd`; `exec_jalr_of_completes`, `exec_cJr` and
`exec_cJalr` tie it to `exec`. -/
def State.jumpTo (s : State) (i : Instr) (target : Word) (rd : RegNum) (link : Word) : State :=
  ((s.setPc target).setReg rd link).expectPad i

section
variable (s : State) {i : Instr} (target : Word) (rd : RegNum) (link : Word)

@[simp] theorem State.jumpTo_pc : (s.jumpTo i target rd link).pc = target := by simp [State.jumpTo]

@[simp] theorem State.jumpTo_lpl : (s.jumpTo i target rd link).lpl = s.lpl := by simp [State.jumpTo]

theorem State.jumpTo_regWritten : RegWritten rd link.toNat s (s.jumpTo i target rd link) where
  dest   := fun hrd => by rw [State.jumpTo, State.expectPad_reg, State.reg_setReg_same _ _ _ hrd]
  x0     := State.reg_zero _
  others := fun r hr => by rw [State.jumpTo, State.expectPad_reg, State.reg_setReg_other _ _ _ _ hr]; rfl

/-- A jump that links into `x0` writes no register. -/
theorem State.jumpTo_zero_sameRegs : SameRegs s (s.jumpTo i target 0 link) := fun r => State.expectPad_reg _ i r

theorem State.jumpTo_frame : Frame s (s.jumpTo i target rd link) where
  memory    := fun a => by simp [State.jumpTo]
  csrs      := by constructor <;> simp [State.jumpTo]
  priv      := by simp [State.jumpTo]
  virt      := by simp [State.jumpTo]
  cfg       := by simp [State.jumpTo]
  inputs    := by simp [State.jumpTo]
  targets   := by simp [State.jumpTo]
  freeCount := by simp [State.jumpTo]

/-- `ELP` is set exactly when CFI is active and the jump expects a landing pad (R91 to R93). -/
theorem State.jumpTo_elp : (s.jumpTo i target rd link).elp =
    if s.xfcfie = true ∧ isLpExpected i = true then .lpExpected else s.elp := by
  simp [State.jumpTo, State.expectPad_elp]

theorem State.jumpTo_elp_of_expected (hact : s.xfcfie = true) (h : isLpExpected i = true) :
    (s.jumpTo i target rd link).elp = .lpExpected := by
  rw [State.jumpTo_elp, if_pos ⟨hact, h⟩]

theorem State.jumpTo_elp_of_outside (h : s.xfcfie = false ∨ isLpExpected i = false) :
    (s.jumpTo i target rd link).elp = s.elp := by
  rw [State.jumpTo_elp, if_neg]
  rintro ⟨hact, hexp⟩
  exact h.elim (by simp [hact]) (by simp [hexp])

end

/-! `JALR` (R172, R91, R94). -/

theorem State.jalrTarget_toNat (s : State) (rs1 : RegNum) (imm12 : BitVec 12) :
    ((jalrTarget s.cfg.xlen (s.reg rs1) imm12).toNat : Int) = s.sumImm rs1 imm12 - s.sumImm rs1 imm12 % 2 := by
  rw [← s.addImm_reg_toNat, jalrTarget, clearBit0_toNat]
  omega

theorem exec_jalr_of_completes {s : State} (rd : RegNum) {rs1 : RegNum} {imm12 : BitVec 12}
    (h : s.cfg.hasC = true ∨ s.sumImm rs1 imm12 / 2 % 2 = 0) :
    exec (.jalr rd rs1 imm12) s = .next (s.jumpTo (.jalr rd rs1 imm12) (jalrTarget s.cfg.xlen (s.reg rs1) imm12) rd
      (pcPlus s.cfg.xlen s.pc 4)) := by
  refine if_neg ?_
  rintro ⟨hc, hbit⟩
  rw [s.jalrTarget_bit1] at hbit
  obtain hC | heven := h
  · simp [hC] at hc
  · omega

theorem exec_jalr_of_misaligned {s : State} (rd : RegNum) {rs1 : RegNum} {imm12 : BitVec 12}
    (hc : s.cfg.hasC = false) (h : s.sumImm rs1 imm12 / 2 % 2 = 1) :
    exec (.jalr rd rs1 imm12) s = .next (s.takeTrap Cause.instructionAddressMisaligned) :=
  if_pos ⟨hc, (s.jalrTarget_bit1 rs1 imm12).mpr h⟩

theorem isLpExpected_jalr (rd rs1 : RegNum) (imm12 : BitVec 12) :
    isLpExpected (.jalr rd rs1 imm12) = true ↔ rs1 ≠ 1 ∧ rs1 ≠ 5 ∧ ¬ (rd = 7 ∧ rs1 = 7) := by
  obtain ⟨hjalr, -⟩ := lpExpectedPredicate
  exact hjalr rd rs1 imm12

/-- Settles O22: a jump to the sum with bit 0 cleared, linking `pc + 4`. -/
theorem jalrResult : Obligations.JalrResult := by
  intro s rd rs1 imm12 haligned
  refine ⟨_, exec_jalr_of_completes rd haligned, ?target, ?link, fun hact h1 h5 h7 => ?expected, fun hout => ?outside,
    s.jumpTo_lpl _ rd _, s.jumpTo_frame _ rd _⟩
  case target => rw [State.jumpTo_pc, s.jalrTarget_toNat]
  case link =>
    rw [← pcPlus_toNat]
    exact s.jumpTo_regWritten _ rd _
  case expected => exact s.jumpTo_elp_of_expected _ rd _ hact ((isLpExpected_jalr rd rs1 imm12).mpr ⟨h1, h5, h7⟩)
  case outside =>
    refine s.jumpTo_elp_of_outside _ rd _ (hout.imp_right fun hreg => ?_)
    rw [Bool.eq_false_iff, Ne, isLpExpected_jalr]
    exact fun ⟨h1, h5, h7⟩ => hreg.elim h1 (Or.elim · h5 h7)

/-- Settles O23: the trap instead of the jump, which writes no register and from M saves `ELP` and the pc. -/
theorem jalrMisalignedTraps : Obligations.JalrMisalignedTraps := by
  intro s rd rs1 imm12 hc hodd
  refine ⟨_, exec_jalr_of_misaligned rd hc hodd, rfl, s.takeTrap_reg _, fun hm => ?_⟩
  obtain ⟨help, hpc, -⟩ := State.takeTrap_saves_m Cause.instructionAddressMisaligned hm
  exact ⟨help, hpc⟩

/-! `C.JR` and `C.JALR`, which are no software guarded jumps (R173, R174, R92, R93). -/

theorem exec_cJr (rs1 : RegNum) (s : State) :
    exec (.cJr rs1) s = .next (s.jumpTo (.cJr rs1) (clearBit0 (s.reg rs1)) 0 0) := rfl

theorem exec_cJalr (rs1 : RegNum) (s : State) :
    exec (.cJalr rs1) s = .next (s.jumpTo (.cJalr rs1) (clearBit0 (s.reg rs1)) 1 (pcPlus s.cfg.xlen s.pc 2)) := rfl

/-- What the two have in common: `ELP` by `rs1` alone, and the frame. -/
theorem State.jumpTo_unguarded (s : State) {i : Instr} {rs1 : RegNum} (hjump : jumpRs1 i = some rs1)
    (hguard : isSwGuardedJump i = false) (target : Word) (rd : RegNum) (link : Word) :
    (s.xfcfie = true → rs1 ≠ 1 → rs1 ≠ 5 → (s.jumpTo i target rd link).elp = .lpExpected) ∧
    (s.xfcfie = false ∨ rs1 = 1 ∨ rs1 = 5 → (s.jumpTo i target rd link).elp = s.elp) ∧
    (s.jumpTo i target rd link).lpl = s.lpl ∧ Frame s (s.jumpTo i target rd link) := by
  refine ⟨fun hact h1 h5 => ?expected, fun hout => ?outside, s.jumpTo_lpl target rd link, s.jumpTo_frame target rd link⟩
  case expected =>
    exact s.jumpTo_elp_of_expected target rd link hact ((isLpExpected_iff i).mpr ⟨⟨rs1, hjump, h1, h5⟩, hguard⟩)
  case outside => exact s.jumpTo_elp_of_outside target rd link (hout.imp_right (isLpExpected_eq_false hjump))

/-- Settles O24: a jump to `rs1` with bit 0 cleared that links into `x0`. -/
theorem cJrResult : Obligations.CJrResult := by
  intro s rs1
  refine ⟨_, exec_cJr rs1 s, ?target, s.jumpTo_zero_sameRegs _ 0, s.jumpTo_unguarded rfl rfl _ 0 0⟩
  rw [State.jumpTo_pc, clearBit0_toNat]

/-- Settles O25: a jump to the old `rs1` with bit 0 cleared that links `pc + 2` into `x1`. -/
theorem cJalrResult : Obligations.CJalrResult := by
  intro s rs1
  refine ⟨_, exec_cJalr rs1 s, ?target, ?link, s.jumpTo_unguarded rfl rfl _ 1 _⟩
  case target => rw [State.jumpTo_pc, clearBit0_toNat]
  case link =>
    rw [← pcPlus_toNat]
    exact s.jumpTo_regWritten _ 1 _

end Sys2Proof.Machine
end

section
/-! PROOFS. Taking a trap and returning from one: what each entry and each return writes and keeps, and that a return undoes
the entry of its mode. -/

namespace Sys2Proof.Machine

open Sys2Proof

/-! The fields that the entries and the returns write by parts. -/

@[simp] theorem State.enterM_mstatus (s : State) (c : Cause) :
    (s.enterM c).mstatus =
      { s.mstatus with
        mpelp := s.elp, mpp := s.priv, mpv := if s.cfg.hasH then s.virt else s.mstatus.mpv, mpie := s.mstatus.mie,
        mie := false } := rfl

@[simp] theorem State.enterS_mstatus (s : State) (c : Cause) :
    (s.enterS c).mstatus =
      { s.mstatus with spelp := s.elp, spp := s.priv.toSpp, spie := s.mstatus.sie, sie := false } := rfl

@[simp] theorem State.enterS_hstatus (s : State) (c : Cause) :
    (s.enterS c).hstatus = { s.hstatus with spv := if s.cfg.hasH then s.virt else s.hstatus.spv } := rfl

@[simp] theorem State.returnM_virt (s : State) :
    s.returnM.virt = (decide (s.mstatus.mpp ≠ .m) && s.cfg.hasH && s.mstatus.mpv) := rfl

@[simp] theorem State.returnM_mstatus (s : State) :
    s.returnM.mstatus =
      { s.mstatus with
        mpelp := .noLpExpected, mie := s.mstatus.mpie, mpie := true, mpp := leastPriv s.cfg, mpv := false } := rfl

@[simp] theorem State.returnS_mstatus (s : State) :
    s.returnS.mstatus = { s.mstatus with spelp := .noLpExpected, sie := s.mstatus.spie, spie := true, spp := .u } := rfl

@[simp] theorem State.returnS_hstatus (s : State) : s.returnS.hstatus = { s.hstatus with spv := false } := rfl

@[simp] theorem State.returnVS_vsstatus (s : State) :
    s.returnVS.vsstatus =
      { s.vsstatus with spelp := .noLpExpected, sie := s.vsstatus.spie, spie := true, spp := .u } := rfl

/-! `MRET` and `SRET`, one equation for each outcome (R198 to R200). -/

section

variable {s : State}

theorem exec_mret_of_m (hm : s.priv = .m) : exec .mret s = .next s.returnM := if_pos hm

theorem exec_mret_of_below_m (hm : s.priv ≠ .m) : exec .mret s = .next s.raiseIllegal := if_neg hm

theorem exec_sret_of_virt_false (hS : s.cfg.hasS = true) (hv : s.virt = false) :
    exec .sret s =
      .next (if s.priv = .u ∨ (s.priv = .s ∧ s.mstatus.tsr = true) then s.raiseIllegal else s.returnS) := by
  rw [exec, execSret, if_neg (by simp [hS]), if_neg (by simp [hv])]
  split <;> rfl

theorem exec_sret_of_virt_true (hS : s.cfg.hasS = true) (hv : s.virt = true) :
    exec .sret s =
      .next (if s.priv = .u ∨ s.hstatus.vtsr = true then s.takeTrap Cause.virtualInstruction else s.returnVS) := by
  rw [exec, execSret, if_neg (by simp [hS]), if_pos hv]
  split <;> rfl

theorem exec_sret_returnS (hS : s.cfg.hasS = true) (hv : s.virt = false)
    (hp : s.priv = .m ∨ (s.priv = .s ∧ s.mstatus.tsr = false)) : exec .sret s = .next s.returnS := by
  have hok : ¬ (s.priv = .u ∨ (s.priv = .s ∧ s.mstatus.tsr = true)) := by
    obtain hm | ⟨hs, htsr⟩ := hp
    · simp [hm]
    · simp [hs, htsr]
  rw [exec_sret_of_virt_false hS hv, if_neg hok]

theorem exec_sret_returnVS (hS : s.cfg.hasS = true) (hv : s.virt = true) (hs : s.priv = .s)
    (hvtsr : s.hstatus.vtsr = false) : exec .sret s = .next s.returnVS := by
  rw [exec_sret_of_virt_true hS hv, if_neg (by simp [hs, hvtsr])]

end

/-- Settles O27: the fields `returnM` writes, `V` by `MPP`, `HAS_H` and `MPV`. -/
theorem mretResult : Obligations.MretResult := by
  intro s hm
  refine ⟨s.returnM, exec_mret_of_m hm, rfl, rfl, rfl, fun hmpp => ?toM, fun hmpp hH => ?withH, fun hH => ?withoutH, ?_⟩
  case toM => simp [hmpp]
  case withH => simp [hmpp, hH]
  case withoutH => simp [hH]
  simp [SameRegs, SameMemory]

/-- Settles O28: the branch of `MRET` that is not M-mode. -/
theorem mretBelowMTraps : Obligations.MretBelowMTraps :=
  fun _ hm => exec_mret_of_below_m hm

/-- Settles O29: the fields `returnS` writes, the mode by `SPP`. -/
theorem sretResult : Obligations.SretResult := by
  intro s hS hv hp
  refine ⟨s.returnS, exec_sret_returnS hS hv hp, rfl, rfl, congrArg Spp.toPriv, congrArg Spp.toPriv, ?_⟩
  simp [SameRegs, SameMemory]

/-- Settles O30: the fields `returnVS` writes, the mode by `vsstatus.SPP`. -/
theorem sretVsResult : Obligations.SretVsResult := by
  intro s hS hv hs hvtsr
  refine ⟨s.returnVS, exec_sret_returnVS hS hv hs hvtsr, rfl, rfl, congrArg Spp.toPriv, congrArg Spp.toPriv, ?_⟩
  simp [SameRegs, SameMemory]

/-- Settles O31: the trap branches of `SRET` for each value of `V`. -/
theorem sretTraps : Obligations.SretTraps := by
  intro s hS
  refine ⟨fun hv hp => ?illegal, fun hv _ hvtsr => ?virtual⟩
  case illegal => rw [exec_sret_of_virt_false hS hv, if_pos hp]
  case virtual => rw [exec_sret_of_virt_true hS hv, if_pos (.inr hvtsr)]

/-! Trap entry (R195, R196). -/

/-- What every entry does alike: `ELP` is cleared, and registers, `lpl`, memory, enables and parameters are kept (R195). -/
theorem State.trapEntry_keeps (s : State) (x : TrapMode) (c : Cause) :
    (s.trapEntry x c).elp = .noLpExpected ∧ SameRegs s (s.trapEntry x c) ∧ (s.trapEntry x c).lpl = s.lpl ∧
    SameMemory s (s.trapEntry x c) ∧ SameEnables s (s.trapEntry x c) ∧ (s.trapEntry x c).cfg = s.cfg := by
  cases x <;> exact ⟨rfl, fun _ => rfl, rfl, fun _ => rfl, ⟨rfl, rfl, rfl, rfl, rfl⟩, rfl⟩

/-- Settles O33: each entry writes the `xPELP` bit of its own mode. -/
theorem trapSavesElp : Obligations.TrapSavesElp := by
  intro s x c
  obtain ⟨help, hkept⟩ := s.trapEntry_keeps x c
  refine ⟨s.trapEntry x c, rfl, help, ?_, ?_, ?_, hkept⟩
  all_goals
    rintro rfl
    exact ⟨rfl, rfl, rfl⟩

/-- An exception, and any trap where interrupts are not vectored, enters at the base. -/
theorem Tvec.entry_direct (x : Xlen) {v : Tvec} {c : Cause} (h : c.interrupt = false ∨ v.vectored = false) :
    v.entry x c = v.base := by
  obtain h | h := h <;> simp [Tvec.entry, h]

/-- A vectored interrupt enters at the base plus 4 times its code, modulo `2^XLEN`. -/
theorem Tvec.entry_vectored (x : Xlen) {v : Tvec} {c : Cause} (hi : c.interrupt = true) (hv : v.vectored = true) :
    (v.entry x c).toNat = (v.base.toNat + 4 * c.code.toNat) % 2 ^ x.bits := by
  rw [Tvec.entry, if_pos (by simp [hi, hv]), pcPlus_toNat]

/-- Settles O34: the fields each entry writes, the pc by the two cases of `xtvec`. -/
theorem trapEntryBase : Obligations.TrapEntryBase := by
  intro s c
  refine ⟨⟨s.enterM c, rfl, ?m⟩, ⟨s.enterS c, rfl, ?s⟩, ⟨s.enterVS c, rfl, ?vs⟩⟩
  case m =>
    refine ⟨rfl, rfl, rfl, rfl, rfl, rfl, fun hH => if_pos hH, rfl, rfl, Tvec.entry_direct _, Tvec.entry_vectored _, ?_⟩
    simp
  case s =>
    refine ⟨rfl, rfl, rfl, rfl, rfl, congrArg Priv.toSpp, congrArg Priv.toSpp, fun hH => if_pos hH, rfl, rfl,
      Tvec.entry_direct _, Tvec.entry_vectored _, ?_⟩
    simp
  case vs =>
    refine ⟨rfl, rfl, rfl, rfl, rfl, congrArg Priv.toSpp, congrArg Priv.toSpp, rfl, rfl, Tvec.entry_direct _,
      Tvec.entry_vectored _, ?_⟩
    simp

/-! The order of the modes (R202). -/

theorem privilegeOf_le_m (p : Priv) (v : Bool) : privilegeOf p v ≤ privilegeOf .m false := by
  cases p <;> cases v <;> decide

theorem privilegeOf_le_s {p : Priv} (hm : p ≠ .m) (v : Bool) : privilegeOf p v ≤ privilegeOf .s false := by
  cases p with
  | m => exact absurd rfl hm
  | s | u => cases v <;> decide

theorem privilegeOf_le_vs {p : Priv} (hm : p ≠ .m) : privilegeOf p true ≤ privilegeOf .s true := by
  cases p with
  | m => exact absurd rfl hm
  | s | u => decide

/-- Settles O35: the three entries, S and VS from below M only and VS with `V = 1` only. -/
theorem trapNeverLowersPrivilege : Obligations.TrapNeverLowersPrivilege := by
  intro s c
  refine ⟨s.takeTrap c, rfl, ?_⟩
  obtain e | ⟨e, hm, -⟩ | ⟨e, hm, -, hv⟩ := s.takeTrap_cases c <;> rw [e]
  · exact ⟨privilegeOf_le_m _ _, nofun⟩
  · exact ⟨privilegeOf_le_s hm _, nofun⟩
  · rw [hv]
    exact ⟨privilegeOf_le_vs hm, nofun⟩

/-! A return undoes the entry of its mode (R201). -/

theorem Priv.toPriv_toSpp {p : Priv} (hm : p ≠ .m) : p.toSpp.toPriv = p := by
  cases p with
  | m => exact absurd rfl hm
  | s | u => rfl

/-- `xFCFIE` is the same in two states of one mode with the same enables. -/
theorem State.xfcfie_of_sameEnables {s t : State} (hp : t.priv = s.priv) (hv : t.virt = s.virt) (h : SameEnables s t) :
    t.xfcfie = s.xfcfie := by
  simp only [State.xfcfie, hp, hv, h.mfcfie, h.menvcfg, h.henvcfg, h.ufcfie, h.vsufcfie]

/-- `MPP` and `MPV` give back `V` where the mode trapped from exists. -/
theorem State.returnM_enterM_virt {s : State} (hmode : modeExists s.cfg s.priv s.virt) (c : Cause) :
    (s.enterM c).returnM.virt = s.virt := by
  cases hv : s.virt with
  | false => simp +contextual [hv]
  | true =>
    rw [hv] at hmode
    have hm : s.priv ≠ .m := by
      intro hm
      rw [hm] at hmode
      exact nomatch hmode
    simp [hv, hm, modeExists_hasH hmode]

/-- `SPV` gives back `V` where the mode trapped from exists. -/
theorem State.returnS_enterS_virt {s : State} (hmode : modeExists s.cfg s.priv s.virt) (c : Cause) :
    (s.enterS c).returnS.virt = s.virt := by
  cases hv : s.virt with
  | false => simp +contextual [hv]
  | true => simp [hv, modeExists_hasH (hv ▸ hmode)]

/-- Settles O37: each return reads the fields its entry wrote, and no enable changes on the way. -/
theorem trapThenReturnResumes : Obligations.TrapThenReturnResumes := by
  intro s c hmode
  refine ⟨?m, fun hm hS htsr => ?s, fun hm hS hv hvtsr => ?vs⟩
  case m =>
    have hvirt := State.returnM_enterM_virt hmode c
    exact ⟨_, exec_mret_of_m rfl, rfl, rfl, rfl, hvirt, rfl, fun _ => rfl, rfl,
      State.xfcfie_of_sameEnables rfl hvirt ⟨rfl, rfl, rfl, rfl, rfl⟩⟩
  case s =>
    have hvirt := State.returnS_enterS_virt hmode c
    have hpriv : (s.enterS c).returnS.priv = s.priv := Priv.toPriv_toSpp hm
    exact ⟨_, exec_sret_returnS hS rfl (.inr ⟨rfl, htsr⟩), rfl, rfl, hpriv, hvirt, rfl, fun _ => rfl, rfl,
      State.xfcfie_of_sameEnables hpriv hvirt ⟨rfl, rfl, rfl, rfl, rfl⟩⟩
  case vs =>
    have hvirt : (s.enterVS c).returnVS.virt = s.virt := hv.symm
    have hpriv : (s.enterVS c).returnVS.priv = s.priv := Priv.toPriv_toSpp hm
    exact ⟨_, exec_sret_returnVS hS rfl rfl hvtsr, rfl, rfl, hpriv, hvirt, rfl, fun _ => rfl, rfl,
      State.xfcfie_of_sameEnables hpriv hvirt ⟨rfl, rfl, rfl, rfl, rfl⟩⟩

end Sys2Proof.Machine
end

section
/-! PROOFS. Words of the spec: the vectors' words, and the words that hold an accidental landing pad. -/

namespace Sys2Proof

/-- Settles O3: the decoder computes on each of the eleven words. -/
theorem specWordsDecode : Obligations.SpecWordsDecode := by
  unfold Obligations.SpecWordsDecode
  decide

/-! Accidental landing pads (R234). -/

/-- The row of `lpcll` fixes bits 31:25 and 14:0 and leaves the label between them free (R62). -/
theorem inRow_lpcll_iff (w : BitVec 32) :
    inRow w 0xFE007FFF 0x82004073 = true ↔ w.extractLsb' 25 7 = 0b1000001#7 ∧ w.extractLsb' 0 15 = 0x4073#15 := by
  rw [inRow_iff]
  constructor
  · intro h
    exact ⟨extract_of_and h 25 7 rfl, extract_of_and h 0 15 rfl⟩
  · rintro ⟨htop, hlow⟩
    have hw : w.extractLsb' 25 7 ++ w.extractLsb' 15 10 ++ w.extractLsb' 0 15 = w := by
      rw [BitVec.extractLsb'_append_extractLsb'_eq_extractLsb' (by rfl), BitVec.extractLsb'_append_extractLsb']
    rw [← hw, htop, hlow]
    calc (0b1000001#7 ++ w.extractLsb' 15 10 ++ 0x4073#15) &&& (BitVec.allOnes 7 ++ 0#10 ++ BitVec.allOnes 15)
      _ = (0b1000001#7 &&& BitVec.allOnes 7) ++ (w.extractLsb' 15 10 &&& 0#10) ++ (0x4073#15 &&& BitVec.allOnes 15) := by
        rw [BitVec.and_append, BitVec.and_append]
      _ = 0x82004073 := by rw [BitVec.and_zero]; rfl

/-- A word decodes as `lpcll` exactly when it is in `lpcll`'s row: the row comes first, and no other gives an `lpcll`. -/
theorem decode_lpcll_iff (cfg : Config) (w : BitVec 32) :
    (∃ flpl, decode cfg (.word w) = .instr (.lpcll flpl)) ↔ inRow w 0xFE007FFF 0x82004073 = true := by
  constructor
  · rintro ⟨flpl, hdecode⟩
    have hencode : encode cfg (.lpcll flpl) = some (.word w) := encode_of_decode32 hdecode nofun
    cases hencode
    exact (match_or_place rfl rfl (by decide) flpl).1
  · intro h
    exact ⟨_, decode32_of_inRow cfg 0 rfl h⟩

/-- Fixing the low 15 bits of a parcel leaves two parcels, by bit 15. -/
theorem parcel_low15_iff (p : BitVec 16) : p.extractLsb' 0 15 = 0x4073#15 ↔ p = 0x4073 ∨ p = 0xC073 := by
  rw [← BitVec.toNat_inj, ← BitVec.toNat_inj, ← BitVec.toNat_inj, BitVec.extractLsb'_toNat, Nat.shiftRight_zero]
  simp only [BitVec.toNat_ofNat, BitVec.ofNat_eq_ofNat]
  omega

/-- Settles O6: of the two fixed fields of `lpcll`, the upper lies in the half taken from `b`, the lower in that from `a`. -/
theorem accidentalPadWords : Obligations.AccidentalPadWords := by
  intro cfg a b
  have htop : (b.extractLsb' 0 16 ++ a.extractLsb' 16 16).extractLsb' 25 7 = b.extractLsb' 9 7 := by
    rw [BitVec.extractLsb'_append_eq_of_le (by decide), BitVec.extractLsb'_extractLsb'_of_le (by decide)]
  have hlow : (b.extractLsb' 0 16 ++ a.extractLsb' 16 16).extractLsb' 0 15 = (a.extractLsb' 16 16).extractLsb' 0 15 :=
    BitVec.extractLsb'_append_eq_of_add_le (by decide)
  rw [decode_lpcll_iff, inRow_lpcll_iff, htop, hlow, parcel_low15_iff]
  exact and_comm

end Sys2Proof
end

section
/-! PROOFS. How a step ends: it stops only where it cannot fetch or decode, and an enable just written is in force. -/

namespace Sys2Proof.Machine

open Sys2Proof

/-! The stops of a step, by name (R96; log 7, 14). -/

theorem step_of_unwrittenFetch {s : State} (hirq : s.input.irq = none) (hfault : s.input.fetchFault = none)
    (hfetch : s.fetch = none) : step s = .fault (.unwrittenFetch s.pc) := by
  simp [step, stepWith, hirq, hfault, hfetch]

theorem step_of_rejected {s : State} {w : InstWord} {why : Reject} (hirq : s.input.irq = none)
    (hfault : s.input.fetchFault = none) (hfetch : s.fetch = some w) (hdecode : decode s.cfg w = .rejected why)
    (hdue : ¬ s.padDue) : step s = .refused (.undecodable why w) := by
  have hgo : s.popInput.padMissing (.rejected why) = false := by
    rw [Bool.eq_false_iff, Ne, State.padMissing_iff]
    rintro ⟨hact, help, -⟩
    exact hdue ⟨hact, help⟩
  simp [step, stepWith, runFetched, hirq, hfault, hfetch, hdecode, hgo]

/-! A decoded instruction never stops a step. -/

/-- Every instruction answers a next state, whichever of its branches is taken. -/
theorem exec_next (i : Instr) (s : State) : ∃ t, exec i s = .next t := by
  cases i with
  | lpcll | lpcnl | jalr | mret | sret =>
    simp only [exec, execLpcll, execLpcnl, execJalr, execMret, execSret]
    split_ifs <;> exact ⟨_, rfl⟩
  | _ => exact ⟨_, rfl⟩

/-- While a landing pad is due, coming to any other instruction is a trap (R95). -/
theorem step_of_runs_padDue {s : State} {i : Instr} (hrun : s.runs i) (hdue : s.padDue)
    (hother : ∀ flpl, i ≠ .lpcll flpl) : step s = .next s.popInput.raiseIllegal := by
  obtain ⟨hirq, hfault, w, hfetch, hdecode⟩ := hrun
  have hnoPad : ∀ flpl, decode s.cfg w ≠ .instr (.lpcll flpl) := by
    intro flpl h
    exact hother flpl (Decoded.instr.inj (hdecode.symm.trans h))
  obtain ⟨t, hstep, rfl, -⟩ := missingPadTraps s w hdue hirq hfault hfetch hnoPad
  exact hstep

theorem step_next_of_runs {s : State} {i : Instr} (hrun : s.runs i) : ∃ t, step s = .next t := by
  by_cases hpad : ¬ s.padDue ∨ ∃ flpl, i = .lpcll flpl
  · rw [step_of_runs hrun hpad]
    exact exec_next i s.popInput
  · obtain ⟨hdue, hother⟩ := not_or.mp hpad
    exact ⟨_, step_of_runs_padDue hrun (not_not.mp hdue) (not_exists.mp hother)⟩

/-- Settles O50: one lemma for each of fetch, decoder and instruction. -/
theorem stepStopsByName : Obligations.StepStopsByName := by
  intro s hirq hfault
  exact ⟨step_of_unwrittenFetch hirq hfault, fun _ _ => step_of_rejected hirq hfault,
    fun w _ hfetch hdecode => step_next_of_runs ⟨hirq, hfault, w, hfetch, hdecode⟩⟩

/-! A write of `MFCFIE` in M-mode (R236, D11). -/

/-- In M-mode `MFCFIE` alone decides whether an expected landing pad is due. -/
theorem State.padDue_setMfcfie {s : State} (hm : s.priv = .m) (help : s.elp = .lpExpected) (b : Bool) :
    (s.setCsrField .mseccfgMFCFIE b).padDue ↔ b = true := by
  have hact : (s.setCsrField .mseccfgMFCFIE b).xfcfie = b := State.xfcfie_m hm
  rw [State.padDue, hact]
  exact and_iff_left help

/-- Settles O54: the written bit decides whether a pad is due, and the next step reads it. -/
theorem enableSeenByNextStep : Obligations.EnableSeenByNextStep := by
  intro s t b hm help hwrite
  obtain ⟨-, -, rfl⟩ := State.softwareWrite_eq_some.mp hwrite
  have hdue := State.padDue_setMfcfie hm help b
  refine ⟨hdue, fun w i hirq hfault hfetch hdecode hother => ?_⟩
  have hrun : (s.setCsrField .mseccfgMFCFIE b).runs i := ⟨hirq, hfault, w, hfetch, hdecode⟩
  cases b with
  | true => exact step_of_runs_padDue hrun (hdue.mpr rfl) hother
  | false => exact step_of_runs hrun (.inl (mt hdue.mp Bool.false_ne_true))

/-! Reset (R29, R230). -/

/-- Without `MFCFIE` and `menvcfg.CFIE` no mode has CFI active (R26). -/
theorem State.xfcfie_eq_false {s : State} (hm : s.mseccfg.mfcfie = false) (hbelow : s.menvcfg.cfie = false) :
    s.xfcfie = false := by
  simp [State.xfcfie, hm, hbelow]

/-- Settles O49: the fields are those of the default `RESET(f)`, and no mode is active without the two enables. -/
theorem resetLeavesCfiOff : Obligations.ResetLeavesCfiOff := by
  refine ⟨fun cfg resetPc p v => ⟨State.resetWith cfg ResetValues.default resetPc, rfl, ?_⟩, rfl⟩
  exact ⟨rfl, rfl, rfl, rfl, rfl, rfl, rfl, rfl, rfl, rfl, rfl, rfl, rfl, rfl, rfl, State.xfcfie_eq_false rfl rfl⟩

end Sys2Proof.Machine
end

section
/-! PROOFS. The model's choices about traps: `SRET` where the spec is silent, and the reading of the delegation registers. -/

namespace Sys2Proof.Machine

open Sys2Proof

/-! `SRET` without `HAS_S` and in VU-mode (log 13). -/

theorem exec_sret_of_no_s {s : State} (hS : s.cfg.hasS = false) : exec .sret s = .next s.raiseIllegal := if_pos hS

/-- Settles O32: the first branch of `SRET`, and the trap branch with `V = 1`. -/
theorem sretChosenTraps : Obligations.SretChosenTraps := by
  intro s
  refine ⟨exec_sret_of_no_s, fun hS hv hu => ?_⟩
  rw [exec_sret_of_virt_true hS hv, if_pos (.inl hu)]

/-! The target of a trap (log 9). -/

theorem State.trapTarget_of_silent {s : State} (h : s.targets = []) (c : Cause) :
    s.trapTarget c = s.delegatedTarget c := by
  rw [State.trapTarget, h]

section

variable {s : State} (c : Cause)

theorem State.delegatedTarget_m (hd : delegated s.deleg.medeleg s.deleg.mideleg c = false) :
    s.delegatedTarget c = .m := by
  simp [State.delegatedTarget, hd]

variable (hm : s.priv ≠ .m)
include hm

theorem State.delegatedTarget_s (hS : s.cfg.hasS = true) (hd : delegated s.deleg.medeleg s.deleg.mideleg c = true)
    (hv : s.virt = false ∨ delegated s.deleg.hedeleg s.deleg.hideleg c = false) : s.delegatedTarget c = .s := by
  have hstop : (s.virt && delegated s.deleg.hedeleg s.deleg.hideleg c) = false := Bool.and_eq_false_iff.mpr hv
  simp [State.delegatedTarget, hm, hS, hd, hstop]

theorem State.delegatedTarget_vs (hS : s.cfg.hasS = true) (hv : s.virt = true)
    (hd : delegated s.deleg.medeleg s.deleg.mideleg c = true)
    (hh : delegated s.deleg.hedeleg s.deleg.hideleg c = true) : s.delegatedTarget c = .vs := by
  simp [State.delegatedTarget, hm, hS, hd, hv, hh]

end

/-- From M there is no other mode that a trap may be taken into. -/
theorem State.trapTarget_of_m {s : State} (hm : s.priv = .m) (c : Cause) : s.trapTarget c = .m := by
  have hmay := s.trapTarget_may c
  cases hx : s.trapTarget c with
  | m => rfl
  | s | vs => simp [hx, State.mayTarget, hm] at hmay

/-- Settles O36: exceptions read `medeleg` and `hedeleg`, interrupts `mideleg` and `hideleg`. -/
theorem trapTargetByDelegation : Obligations.TrapTargetByDelegation := by
  refine fun s code => ⟨fun c hm => State.trapTarget_of_m hm c, fun hsilent => ?_⟩
  simp only [State.trapTarget_of_silent hsilent]
  exact ⟨fun _ => State.delegatedTarget_m ⟨false, code⟩, fun _ => State.delegatedTarget_m ⟨true, code⟩,
    State.delegatedTarget_s ⟨false, code⟩, State.delegatedTarget_s ⟨true, code⟩,
    State.delegatedTarget_vs ⟨false, code⟩, State.delegatedTarget_vs ⟨true, code⟩⟩

end Sys2Proof.Machine
end
